-- ==== Sys2Proof/Word.lean ====
section
/-! DEFINITION. The widths of the block's words and the shape of a pixel, a row and the frame buffer
(spec/00_scope.md R6, spec/10_state.md R20, R32). -/

namespace Sys2Proof

/-- The shift-register buffer `L[0..191]`: bit `i` is the logical index `i`, so bit 0 is the oldest
retained bit and bit 191 the most recently pushed (R6 `C`, R23). -/
abbrev Buffer := BitVec 192

/-- A row-pair index 0..15 (R6 `NROWPAIRS`, R25). -/
abbrev RowAddress := BitVec 4

/-- A frame-buffer row number `y`, 0..31 (R6 `FB_H`, R32). -/
abbrev RowNumber := BitVec 5

/-- A frame-buffer column number `x`, 0..31 (R6 `FB_W`, R32). -/
abbrev Column := BitVec 5

/-- The ROW operand of SELECT_ROW and CLEAR_ROW, the caller's 1-based row (R6 `ROW_IN_W`, R66). -/
abbrev RowOperand := BitVec 5

/-- The index input of the SR read port (R6 `SR_IDX_W`, R68). -/
abbrev SrIndex := BitVec 8

/-- The 9-bit command word `cmd[8:0]` (R61). -/
abbrev CommandWord := BitVec 9

/-- The 6-bit word of the frame-buffer read port, `fb_rd_en` above `fb_rd_y` (R63, R69). -/
abbrev FbReadWord := BitVec 6

/-- The 96-bit frame-buffer read word (R43). -/
abbrev RowWord := BitVec 96

/-- A 32-bit plane, bit `x` for column `x` (R6 `PLANE_W`, R13). -/
abbrev Plane := BitVec 32

/-- A pixel: "three independent 1-bit channels" (R32). -/
structure Pixel where
  r : Bool
  g : Bool
  b : Bool
deriving DecidableEq, Repr, Inhabited

/-- The pixel with every channel off. -/
def Pixel.black : Pixel := { r := false, g := false, b := false }

/-- One frame-buffer row: 32 pixels, one per column (R32). -/
abbrev Row := Vector Pixel 32

/-- The frame buffer: 32 rows (R32). -/
abbrev FrameBuffer := Vector Row 32

end Sys2Proof
end

