-- ==== Sys2Proof/Syntax.lean ====
section
/-! DEFINITION. The instructions: one constructor per row of spec/opcode_table.json. -/

namespace Sys2Proof

/-- The rows of spec/opcode_table.json: the eight commands of the command port (spec/30_encoding.md R62)
and the two read ports (R68, R69). -/
inductive Instr where
  /-- NOP (R90) -/
  | nop
  /-- SELECT_ROW row (R91); `row` is the caller's 1-based row -/
  | selectRow (row : RowOperand)
  /-- PREPARE_LATCH (R92) -/
  | prepareLatch
  /-- PUSH_BIT b (R93) -/
  | pushBit (b : Bool)
  /-- CLEAR_ROW row (R94); `row` is the caller's 1-based row -/
  | clearRow (row : RowOperand)
  /-- LATCH_REGISTER (R95) -/
  | latchRegister
  /-- RSVD6, the reserved word with OP = 110 (R96) -/
  | rsvd6
  /-- RSVD7, the reserved word with OP = 111 (R96) -/
  | rsvd7
  /-- SR_GET: a read of the SR read port at logical index `idx` (R82) -/
  | srGet (idx : SrIndex)
  /-- FB_READ: a read request for row `y` at the frame-buffer read port (R114) -/
  | fbRead (y : RowNumber)
deriving DecidableEq, Repr

/-- The three ports an instruction can be presented at (R60). -/
inductive Port where
  | command
  | srRead
  | fbRead
deriving DecidableEq, Repr

/-- The port an instruction is presented at (R60, R68, R69). -/
def Instr.port : Instr → Port
  | .nop => .command
  | .selectRow _ => .command
  | .prepareLatch => .command
  | .pushBit _ => .command
  | .clearRow _ => .command
  | .latchRegister => .command
  | .rsvd6 => .command
  | .rsvd7 => .command
  | .srGet _ => .srRead
  | .fbRead _ => .fbRead

end Sys2Proof
end

