-- ==== Sys2Proof/Decode.lean ====
section
/-! DEFINITION. Decoding the words of the three ports into instructions and encoding them back
(spec/30_encoding.md sections 2, 4 and 5; spec/opcode_table.json). -/

namespace Sys2Proof

/-- A word as it stands on one of the block's ports (R60). -/
inductive PortWord where
  /-- `cmd[8:0]` with `cmd_valid = 1` -/
  | command (w : CommandWord)
  /-- `sr_rd_idx[7:0]` -/
  | srRead (idx : SrIndex)
  /-- `fb_rd_en` above `fb_rd_y[4:0]` -/
  | fbRead (w : FbReadWord)
deriving DecidableEq, Repr

/-- Why a port word is no instruction. -/
inductive DecodeError where
  /-- the frame-buffer read port with `fb_rd_en = 0`: no read is requested (R69, R114) -/
  | noReadRequest
deriving DecidableEq, Repr

/-- The field `OP = cmd[8:6]` (R61). -/
def opField (w : CommandWord) : BitVec 3 := w.extractLsb' 6 3

/-- The field `B = cmd[5]` (R61, R67). -/
def bitField (w : CommandWord) : Bool := w.getLsbD 5

/-- The field `ROW = cmd[4:0]` (R61, R66). -/
def rowField (w : CommandWord) : RowOperand := w.extractLsb' 0 5

/-- The operation the value of `OP` selects, with the operand fields it uses (R62, R70). A 3-bit value
is 0 to 7, so the last line is `OP = 111` alone. -/
def commandOfOp (op : BitVec 3) (b : Bool) (row : RowOperand) : Instr :=
  match op.toNat with
  | 0 => .nop
  | 1 => .selectRow row
  | 2 => .prepareLatch
  | 3 => .pushBit b
  | 4 => .clearRow row
  | 5 => .latchRegister
  | 6 => .rsvd6
  | _ => .rsvd7

/-- Decoding of a command word, total on every 9-bit word (R70). -/
def decodeCommand (w : CommandWord) : Instr :=
  commandOfOp (opField w) (bitField w) (rowField w)

/-- Decoding of the SR read port: every index is a read (R68). -/
def decodeSrRead (idx : SrIndex) : Instr := .srGet idx

/-- Decoding of the frame-buffer read port: a read where `fb_rd_en = 1` (R69). -/
def decodeFbRead (w : FbReadWord) : Except DecodeError Instr :=
  if w.getLsbD 5 then .ok (.fbRead (w.extractLsb' 0 5)) else .error .noReadRequest

/-- Decoding of a word on any port: total, and rejecting by name. -/
def decode : PortWord → Except DecodeError Instr
  | .command w => .ok (decodeCommand w)
  | .srRead idx => .ok (decodeSrRead idx)
  | .fbRead w => decodeFbRead w

/-- A command word from its three fields, most significant bit first `o o o b r r r r r` (R61). -/
def commandWord (op : BitVec 3) (b : Bool) (row : RowOperand) : CommandWord :=
  op ++ BitVec.ofBool b ++ row

/-- The frame-buffer read port's word from its two signals (R63, R69). -/
def fbReadWord (en : Bool) (y : RowNumber) : FbReadWord := BitVec.ofBool en ++ y

/-- The canonical word of an instruction, ignored bits 0 (R62, R63). -/
def encode : Instr → PortWord
  | .nop => .command (commandWord 0 false 0)
  | .selectRow row => .command (commandWord 1 false row)
  | .prepareLatch => .command (commandWord 2 false 0)
  | .pushBit b => .command (commandWord 3 b 0)
  | .clearRow row => .command (commandWord 4 false row)
  | .latchRegister => .command (commandWord 5 false 0)
  | .rsvd6 => .command (commandWord 6 false 0)
  | .rsvd7 => .command (commandWord 7 false 0)
  | .srGet idx => .srRead idx
  | .fbRead y => .fbRead (fbReadWord true y)

/-- `match` of an instruction's row in the opcode map (R62, spec/opcode_table.json). -/
def tableMatch : Instr → Nat
  | .nop => 0x000
  | .selectRow _ => 0x040
  | .prepareLatch => 0x080
  | .pushBit _ => 0x0C0
  | .clearRow _ => 0x100
  | .latchRegister => 0x140
  | .rsvd6 => 0x180
  | .rsvd7 => 0x1C0
  | .srGet _ => 0x00
  | .fbRead _ => 0x20

/-- `mask` of an instruction's row in the opcode map (R62, spec/opcode_table.json). -/
def tableMask : Instr → Nat
  | .nop => 0x1C0
  | .selectRow _ => 0x1C0
  | .prepareLatch => 0x1C0
  | .pushBit _ => 0x1C0
  | .clearRow _ => 0x1C0
  | .latchRegister => 0x1C0
  | .rsvd6 => 0x1C0
  | .rsvd7 => 0x1C0
  | .srGet _ => 0x00
  | .fbRead _ => 0x20

/-- The `match` values of the eight command rows, in the table's order (R62); every row's mask is
`0x1C0`. -/
def commandMatches : List CommandWord := [0x000, 0x040, 0x080, 0x0C0, 0x100, 0x140, 0x180, 0x1C0]

/-- The bits of a command word that the instruction uses: `OP`, and the operand field of its row; the
others are ignored (R62, R63). -/
def usedBits : Instr → CommandWord
  | .nop => 0x1C0
  | .selectRow _ => 0x1DF
  | .prepareLatch => 0x1C0
  | .pushBit _ => 0x1E0
  | .clearRow _ => 0x1DF
  | .latchRegister => 0x1C0
  | .rsvd6 => 0x1C0
  | .rsvd7 => 0x1C0
  | .srGet _ => 0x000
  | .fbRead _ => 0x000

/-- The number of a word, as spec/opcode_table.json numbers its bits. -/
def PortWord.toNat : PortWord → Nat
  | .command w => w.toNat
  | .srRead idx => idx.toNat
  | .fbRead w => w.toNat

/-- DESIGN CHOICE (notes/assumptions/3.md). The port word that a row of spec/opcode_table.json stands for,
given how many bits the table gives the row (in whole bytes or exactly) and the word's number. Nine bits
or more are the command port. Eight bits or fewer are a read port: `1yyyyy` (0x20 to 0x3F) is the
frame-buffer read row, whose mask is the more specific of the two, and every other 8-bit word is an
SR read index. A number with more bits than its port is no word. -/
def tablePortWord (nbits w : Nat) : Option PortWord :=
  if 9 ≤ nbits then
    if w < 512 then some (.command (BitVec.ofNat 9 w)) else none
  else if 32 ≤ w ∧ w < 64 then some (.fbRead (BitVec.ofNat 6 w))
  else if nbits ≤ 6 then
    if w < 32 then some (.fbRead (BitVec.ofNat 6 w)) else none
  else if w < 256 then some (.srRead (BitVec.ofNat 8 w))
  else none

/-- The instruction the decoder reads from a table row's word, or none where it refuses. -/
def decodeTableWord (nbits w : Nat) : Option Instr :=
  match tablePortWord nbits w with
  | some pw => (decode pw).toOption
  | none => none

end Sys2Proof
end

