-- ==== Sys2Proof/Config.lean ====
section
/-! DEFINITION. The implementation parameters that have more than one setting (spec/00_scope.md R6),
each at the value this hardware takes. The parameters with one value are widths, in Word.lean. -/

namespace Sys2Proof

/-- The settings of the parameter `FB_RESET` (R6, R32). -/
inductive FbReset where
  /-- every channel 0 after reset -/
  | zero
  /-- every channel any value after reset, until its row is first committed -/
  | unknown
deriving DecidableEq, Repr

/-- The settings of the parameter `RDW_MODE`: what a frame-buffer read in the cycle of a commit to the
same row returns (R6, R50; spec/93_implementation_defined.md I13). -/
inductive RdwMode where
  /-- the row as it was before the commit -/
  | old
  /-- the row as the commit leaves it: another build, not this hardware -/
  | new
deriving DecidableEq, Repr

/-- `FB_RESET = ZERO` on this hardware (R6). -/
def Config.fbReset : FbReset := .zero

/-- `RDW_MODE = OLD` on this hardware (R6). -/
def Config.rdwMode : RdwMode := .old

/-- FREE VALUE: the frame-buffer contents after a reset on a build with `FB_RESET = UNKNOWN` (R32,
spec/93_implementation_defined.md I2). Nothing constrains it, and this hardware does not read it
(notes/assumptions/6.md). -/
opaque Config.unknownFrame : FrameBuffer

/-- The frame buffer's contents after a reset, by the parameter `FB_RESET` (R32, R161). -/
def Config.resetFrame (mode : FbReset) : FrameBuffer :=
  match mode with
  | .zero => Vector.replicate 32 (Vector.replicate 32 Pixel.black)
  | .unknown => Config.unknownFrame

end Sys2Proof
end

