-- ==== Sys2Proof/Machine/State.lean ====
section
/-! DEFINITION. The state of the block (spec/10_state.md R20), the inputs a clock cycle presents at its
ports (spec/30_encoding.md R60), the reasons a step could stop, and the state after reset. -/

namespace Sys2Proof.Machine

/-- LatchState `LS` (R27). -/
inductive LatchState where
  | hidden
  | visible
deriving DecidableEq, Repr

/-- What the input ports carry in one clock cycle (R60). These are inputs, not state of the block (R35). -/
structure PortCycle where
  /-- `rst` -/
  rst : Bool
  /-- `cmd_valid` -/
  cmdValid : Bool
  /-- `cmd[8:0]` -/
  cmd : CommandWord
  /-- `sr_rd_idx[7:0]` -/
  srRdIdx : SrIndex
  /-- `fb_rd_en` -/
  fbRdEn : Bool
  /-- `fb_rd_y[4:0]` -/
  fbRdY : RowNumber
deriving DecidableEq, Repr

/-- The state of the block, and two fields of the model's own. -/
structure State where
  /-- `L[0..191]`, the shift-register buffer (R23) -/
  sr : Buffer
  /-- RowAddress `RA` (R25) -/
  ra : RowAddress
  /-- LatchState `LS` (R27) -/
  ls : LatchState
  /-- the frame buffer `FB[y][x]` (R32) -/
  fb : FrameBuffer
  /-- output register `commit_valid` (R33) -/
  commitValid : Bool
  /-- output register `commit_row` (R33) -/
  commitRow : RowAddress
  /-- output register `fb_rd_data` (R34) -/
  fbRdData : RowWord
  /-- The MODEL's own field (DESIGN CHOICE, notes/assumptions/2.md): the value the combinational output
  `sr_rd_bit` (R82) carried in the cycle of the last step. Nothing of the block reads it. -/
  srRdBit : Bool
  /-- The MODEL's own field (DESIGN CHOICE, notes/assumptions/1.md): what the input ports will carry in the
  coming clock cycles, the next cycle first (R22, R35). -/
  inputs : List PortCycle
deriving DecidableEq, Repr

/-- Why a step stops with a fault. There is no constructor: "The block raises no exception, records no
fault and has no fault or error output" (R140). Safe: nothing can raise one (notes/assumptions/17.md). -/
inductive Fault : Type where
deriving DecidableEq, Repr

/-- Why a step stops with a refusal. -/
inductive Refusal where
  /-- An instruction without a meaning, by its mnemonic. Required by the host's interface; every
  instruction has its meaning, so no arm of exec raises it. Safe (notes/assumptions/17.md). -/
  | notModelled (mnemonic : String)
deriving DecidableEq, Repr

/-- The block right after a reset step (R161): the reset values of R23, R25, R27, R32, R33 and R34, and no
inputs presented. `srRdBit` is the model's own; its value here is DESIGN CHOICE (notes/assumptions/2.md). -/
def State.reset : State :=
  { sr := 0
    ra := 0
    ls := .visible
    fb := Config.resetFrame Config.fbReset
    commitValid := false
    commitRow := 0
    fbRdData := 0
    srRdBit := false
    inputs := [] }

/-! Updates of one field each: every change of state in the model is made through them. -/

/-- Replaces the shift-register buffer. -/
def State.setBuffer (s : State) (l : Buffer) : State := { s with sr := l }

/-- Replaces RowAddress. -/
def State.setRowAddress (s : State) (r : RowAddress) : State := { s with ra := r }

/-- Replaces LatchState. -/
def State.setLatch (s : State) (v : LatchState) : State := { s with ls := v }

/-- Replaces the frame buffer. -/
def State.setFrame (s : State) (f : FrameBuffer) : State := { s with fb := f }

/-- Replaces `commit_valid`. -/
def State.setCommitValid (s : State) (v : Bool) : State := { s with commitValid := v }

/-- Replaces `commit_row`. -/
def State.setCommitRow (s : State) (r : RowAddress) : State := { s with commitRow := r }

/-- Replaces `fb_rd_data`. -/
def State.setFbRdData (s : State) (w : RowWord) : State := { s with fbRdData := w }

/-- Replaces the record of `sr_rd_bit`. -/
def State.setSrRdBit (s : State) (b : Bool) : State := { s with srRdBit := b }

/-- Replaces the coming cycles' inputs. -/
def State.setInputs (s : State) (is : List PortCycle) : State := { s with inputs := is }

end Sys2Proof.Machine
end

