-- ==== Sys2Proof/Machine/Flags.lean ====
section
/-! DEFINITION. The flag-like state: LatchState with its output `display_en`, and the commit notification
(spec/10_state.md R27, R28, R31, R33; spec/42_frame_commit_decoder.md R115). There are no arithmetic
flags (R31). -/

namespace Sys2Proof.Machine

/-- The encoding Hidden = 0, Visible = 1 (R27). -/
def LatchState.toBit : LatchState → Bool
  | .hidden => false
  | .visible => true

/-- The output `display_en = LS` (R28). -/
def State.displayEn (s : State) : Bool := s.ls.toBit

/-- The edge that accepts a LATCH_REGISTER: `commit_valid <- 1`, `commit_row <- RA` (R115). -/
def State.noteCommit (s : State) : State := (s.setCommitValid true).setCommitRow s.ra

/-- Every other edge with `rst = 0`: `commit_valid <- 0`, `commit_row` kept (R115). -/
def State.noteNoCommit (s : State) : State := s.setCommitValid false

end Sys2Proof.Machine
end

