-- ==== Sys2Proof/Machine/Operands.lean ====
section
/-! DEFINITION. The operand forms: the ROW operand of SELECT_ROW and CLEAR_ROW, and the rows a RowAddress
selects (spec/30_encoding.md section 3, spec/10_state.md R26). The B operand is taken as is (R67); the
read ports' operands are element numbers and need no computation (R68, R69). -/

namespace Sys2Proof.Machine

/-- The RowAddress a ROW operand selects: `(row - 1) mod 16` with the Euclidean remainder of R9, so row 0
selects 15 (R66; spec/90_conflicts.md C1). `%` on Int is that remainder. -/
def rowAddressOf (row : RowOperand) : RowAddress :=
  BitVec.ofInt 4 (((row.toNat : Int) - 1) % 16)

/-- `topY(r) = r` (R26). -/
def topY (r : RowAddress) : RowNumber := r.setWidth 5

/-- `bottomY(r) = r + 16` (R26). -/
def bottomY (r : RowAddress) : RowNumber := r.setWidth 5 + 16

end Sys2Proof.Machine
end

