-- ==== Sys2Proof/Machine/Ops.lean ====
section
/-! DEFINITION. The named operations over the two storages of the block, the shift register and the frame
buffer (spec/40_shift_register_buffer.md R80 to R82, spec/42_frame_commit_decoder.md R110, R111, R114),
and the reset step (spec/70_reset_and_hazards.md R161). The block takes no exception and returns from none
(spec/60_exceptions.md R143, R144), so no operation stands here for either. -/

namespace Sys2Proof.Machine

/-! The shift register. -/

/-- `SRPush(b)`: every `L'[i] = L[i+1]`, and `L'[191] = b` (R80). -/
def srPush (l : Buffer) (b : Bool) : Buffer := BitVec.cons b (l.extractLsb' 1 191)

/-- `SRGet(i) = L[i]`, for `0 ≤ i ≤ 191` (R81). -/
def srGet (l : Buffer) (i : Nat) : Bool := l.getLsbD i

/-- The SR read port: `L[idx]` for an index up to 191, and 0 for 192 to 255 (R82). -/
def srReadPort (l : Buffer) (idx : SrIndex) : Bool :=
  if idx.toNat ≤ 191 then srGet l idx.toNat else false

/-- The buffer of 192 zeros, which CLEAR_ROW and reset leave (R94, R161). -/
def srCleared : Buffer := 0

/-- The 192 zeros that CLEAR_ROW stands for pushing (R85, R94). -/
def zeroPushes : List Bool := List.replicate 192 false

/-! The frame buffer. -/

/-- `FB[y]` (R32). -/
def fbRow (f : FrameBuffer) (y : RowNumber) : Row := f[y.toNat]'y.isLt

/-- `FB[y][x]` (R32). -/
def fbPixel (f : FrameBuffer) (y : RowNumber) (x : Column) : Pixel := (fbRow f y)[x.toNat]'x.isLt

/-- Overwrites the whole row `y` (R45, R111 `MemWrite`). -/
def fbSetRow (f : FrameBuffer) (y : RowNumber) (row : Row) : FrameBuffer := f.set y.toNat row y.isLt

/-- A pixel as the 3-bit value `R + 2G + 4B` (R43; spec/95_test_vectors.md). -/
def pixelCode (p : Pixel) : Nat := p.r.toNat + 2 * p.g.toNat + 4 * p.b.toNat

/-- A list of pixels as one number, the first pixel in the low three bits. -/
def packPixels : List Pixel → Nat
  | [] => 0
  | p :: ps => pixelCode p + 8 * packPixels ps

/-- `pack`: the 96-bit read word of a row, pixel `x` in bits `3x+2 .. 3x` as B, G, R (R43). -/
def pack (row : Row) : RowWord := BitVec.ofNat 96 (packPixels row.toList)

/-! The frame-commit decoder. -/

/-- The top row of `Decode(L, r)`: planes 0, 1, 2 (R110). -/
def decodeTop (l : Buffer) : Row :=
  Vector.ofFn fun x =>
    { r := srGet l (0 + x.val), g := srGet l (32 + x.val), b := srGet l (64 + x.val) }

/-- The bottom row of `Decode(L, r)`: planes 3, 4, 5 (R110). -/
def decodeBottom (l : Buffer) : Row :=
  Vector.ofFn fun x =>
    { r := srGet l (96 + x.val), g := srGet l (128 + x.val), b := srGet l (160 + x.val) }

/-- `Commit(FB, L, r)`: rows `topY(r)` and `bottomY(r)` are overwritten, every other row is kept (R111). -/
def commit (f : FrameBuffer) (l : Buffer) (r : RowAddress) : FrameBuffer :=
  fbSetRow (fbSetRow f (topY r) (decodeTop l)) (bottomY r) (decodeBottom l)

/-! Operations on the whole state. -/

/-- The push that PUSH_BIT makes (R80, R93). -/
def State.push (s : State) (b : Bool) : State := s.setBuffer (srPush s.sr b)

/-- The row selection of SELECT_ROW and CLEAR_ROW (R91, R94). -/
def State.selectRow (s : State) (row : RowOperand) : State := s.setRowAddress (rowAddressOf row)

/-- The commit of LATCH_REGISTER, with its notification; `L` and `RA` are kept (R95, R111, R112, R115). -/
def State.latch (s : State) : State :=
  ((s.setLatch .visible).setFrame (commit s.fb s.sr s.ra)).noteCommit

/-- The frame-buffer read: `fb_rd_data <- pack(FB[y])`, whatever `LS` is (R114). -/
def State.readRow (s : State) (y : RowNumber) : State := s.setFbRdData (pack (fbRow s.fb y))

/-- The SR read: the value of `sr_rd_bit` for the presented index is recorded; no state of the block
changes (R82; notes/assumptions/2.md). -/
def State.readBit (s : State) (idx : SrIndex) : State := s.setSrRdBit (srReadPort s.sr idx)

/-- The reset step: every state element of the block to its reset value (R161). The model's own fields, the
record of `sr_rd_bit` and the coming cycles' inputs, are no state of the block and are kept. -/
def State.resetEdge (s : State) : State :=
  { sr := srCleared
    ra := 0
    ls := .visible
    fb := Config.resetFrame Config.fbReset
    commitValid := false
    commitRow := 0
    fbRdData := 0
    srRdBit := s.srRdBit
    inputs := s.inputs }

end Sys2Proof.Machine
end

