-- ==== Sys2Proof/Machine/Protocol.lean ====
section
/-! DEFINITION. The meanings of the eight commands (spec/41_protocol_primitives.md R90 to R96): the effect of
the clock edge that accepts the command. Every command has its effect in every state (R97) and completes
(R140). -/

namespace Sys2Proof.Machine

/-- NOP: no state changes, so `commit_valid` is 0 in the next cycle (R90). -/
def execNop (s : State) : Host.Outcome State Fault Refusal := .next s.noteNoCommit

/-- SELECT_ROW: `RA' <- (row - 1) mod 16` (R91). -/
def execSelectRow (row : RowOperand) (s : State) : Host.Outcome State Fault Refusal :=
  .next (s.selectRow row).noteNoCommit

/-- PREPARE_LATCH: `LS' <- Hidden` (R92). -/
def execPrepareLatch (s : State) : Host.Outcome State Fault Refusal :=
  .next (s.setLatch .hidden).noteNoCommit

/-- PUSH_BIT: `SRPush(b)` (R93). -/
def execPushBit (b : Bool) (s : State) : Host.Outcome State Fault Refusal :=
  .next (s.push b).noteNoCommit

/-- CLEAR_ROW: `RA' <- (row - 1) mod 16` and `L'[i] <- 0`, in one step (R94). -/
def execClearRow (row : RowOperand) (s : State) : Host.Outcome State Fault Refusal :=
  .next ((s.selectRow row).setBuffer srCleared).noteNoCommit

/-- LATCH_REGISTER: `LS' <- Visible`, the commit at the current RowAddress, and its notification (R95). -/
def execLatchRegister (s : State) : Host.Outcome State Fault Refusal := .next s.latch

/-- RSVD6: no state changes, exactly as NOP (R96). -/
def execRsvd6 (s : State) : Host.Outcome State Fault Refusal := .next s.noteNoCommit

/-- RSVD7: no state changes, exactly as NOP (R96). -/
def execRsvd7 (s : State) : Host.Outcome State Fault Refusal := .next s.noteNoCommit

end Sys2Proof.Machine
end

