-- ==== Sys2Proof/Machine/ReadPorts.lean ====
section
/-! DEFINITION. The meanings of the two read ports (spec/40_shift_register_buffer.md R82,
spec/42_frame_commit_decoder.md R114). A read is no command (R68, R69): it writes its port's own value and
nothing else (R47), and `commit_valid` is the business of the clock edge it shares
(Machine/Cycle.lean). -/

namespace Sys2Proof.Machine

/-- SR_GET: `sr_rd_bit = (idx <= 191) ? L[idx] : 0` (R82). -/
def execSrGet (idx : SrIndex) (s : State) : Host.Outcome State Fault Refusal := .next (s.readBit idx)

/-- FB_READ: `fb_rd_data <- pack(FB[y])` (R114). -/
def execFbRead (y : RowNumber) (s : State) : Host.Outcome State Fault Refusal := .next (s.readRow y)

end Sys2Proof.Machine
end

