-- ==== Sys2Proof/Machine/Dispatch.lean ====
section
/-! DEFINITION. The meaning of every instruction, one arm per row of spec/opcode_table.json. -/

namespace Sys2Proof.Machine

def exec (i : Instr) (s : State) : Host.Outcome State Fault Refusal :=
  match i with
  | .nop => Sys2Proof.Machine.execNop s
  | .selectRow row => Sys2Proof.Machine.execSelectRow row s
  | .prepareLatch => Sys2Proof.Machine.execPrepareLatch s
  | .pushBit b => Sys2Proof.Machine.execPushBit b s
  | .clearRow row => Sys2Proof.Machine.execClearRow row s
  | .latchRegister => Sys2Proof.Machine.execLatchRegister s
  | .rsvd6 => Sys2Proof.Machine.execRsvd6 s
  | .rsvd7 => Sys2Proof.Machine.execRsvd7 s
  | .srGet idx => Sys2Proof.Machine.execSrGet idx s
  | .fbRead y => Sys2Proof.Machine.execFbRead y s

end Sys2Proof.Machine
end

