-- ==== Sys2Proof/Machine/Cycle.lean ====
section
/-! DEFINITION. One clock cycle: what the ports present, in what order it takes effect, and the block's
outputs (spec/30_encoding.md R60, R65; spec/60_exceptions.md R142; spec/70_reset_and_hazards.md R160, R169). -/

namespace Sys2Proof.Machine

/-- Goes on from a next state, and stops where the first outcome stopped. -/
def andThen (o : Host.Outcome State Fault Refusal) (k : State → Host.Outcome State Fault Refusal) :
    Host.Outcome State Fault Refusal :=
  match o with
  | .next s => k s
  | .fault r => .fault r
  | .refused r => .refused r

/-- A cycle in which nothing is presented (R65). -/
def idleCycle : PortCycle :=
  { rst := false, cmdValid := false, cmd := 0, srRdIdx := 0, fbRdEn := false, fbRdY := 0 }

/-- A cycle in which only the command word `w` is presented. -/
def commandCycle (w : CommandWord) : PortCycle := { idleCycle with cmdValid := true, cmd := w }

/-- A cycle in which only reset is asserted. -/
def resetCycle : PortCycle := { idleCycle with rst := true }

/-- A cycle in which only the given port word is presented. -/
def cycleOfWord : PortWord → PortCycle
  | .command w => commandCycle w
  | .srRead idx => { idleCycle with srRdIdx := idx }
  | .fbRead w => { idleCycle with fbRdEn := w.getLsbD 5, fbRdY := w.extractLsb' 0 5 }

/-- A cycle in which only the word of a row of spec/opcode_table.json is presented; where the number is no
word of a port, nothing is. -/
def cycleOfTableWord (nbits w : Nat) : PortCycle :=
  match tablePortWord nbits w with
  | some pw => cycleOfWord pw
  | none => idleCycle

/-- What the input ports carry in the current cycle. Past the end of the presented inputs they are idle
(notes/assumptions/15.md). -/
def State.currentCycle (s : State) : PortCycle :=
  match s.inputs with
  | [] => idleCycle
  | p :: _ => p

/-- The state with the current cycle's inputs taken. -/
def State.takeCycle (s : State) : State := s.setInputs s.inputs.tail

/-- The state with one more cycle presented ahead of the others. -/
def State.present (s : State) (p : PortCycle) : State := s.setInputs (p :: s.inputs)

/-- The frame-buffer read port at the clock edge: the read, if one is requested (R69, R114). -/
def readPhase (p : PortCycle) (s : State) : Host.Outcome State Fault Refusal :=
  match decode (.fbRead (fbReadWord p.fbRdEn p.fbRdY)) with
  | .ok i => exec i s
  | .error _ => .next s

/-- The command port at the clock edge: the command, if one is presented; otherwise only `commit_valid`
falls (R65, R115). -/
def commandPhase (p : PortCycle) (s : State) : Host.Outcome State Fault Refusal :=
  if p.cmdValid then exec (decodeCommand p.cmd) s else .next s.noteNoCommit

/-- A clock edge with `rst = 0`: the read and the command both take effect (R142). With `RDW_MODE = OLD` the
read sees the frame buffer as before the command (R50), so it is made first. -/
def clockedPhase (mode : RdwMode) (p : PortCycle) (s : State) : Host.Outcome State Fault Refusal :=
  match mode with
  | .old => andThen (readPhase p s) (commandPhase p)
  | .new => andThen (commandPhase p s) (readPhase p)

/-- One clock cycle. The SR read port is combinational and shows the buffer as the cycle finds it (R51, R82);
at the edge, reset takes priority over the command and the frame-buffer read (R142, R160). -/
def cycle (p : PortCycle) (s : State) : Host.Outcome State Fault Refusal :=
  andThen (exec (decodeSrRead p.srRdIdx) s) fun s₁ =>
    if p.rst then .next s₁.resetEdge else clockedPhase Config.rdwMode p s₁

/-- The command a cycle's inputs have the block accept, if any: one in every cycle with `cmd_valid = 1` and
`rst = 0` (R60, R65). -/
def acceptedCommand (p : PortCycle) : Option Instr :=
  if p.cmdValid && !p.rst then some (decodeCommand p.cmd) else none

/-- A cycle's inputs with the read requests left out: index 0 at the SR read port and no request at the
frame-buffer read port. -/
def withoutReads (p : PortCycle) : PortCycle := { p with srRdIdx := 0, fbRdEn := false, fbRdY := 0 }

/-- The output ports (R60). -/
structure Outputs where
  srRdBit : Bool
  fbRdData : RowWord
  displayEn : Bool
  commitValid : Bool
  commitRow : RowAddress
deriving DecidableEq, Repr

/-- What the output ports carry in the current cycle (R28, R33, R34, R82). -/
def State.outputs (s : State) : Outputs :=
  { srRdBit := srReadPort s.sr s.currentCycle.srRdIdx
    fbRdData := s.fbRdData
    displayEn := s.displayEn
    commitValid := s.commitValid
    commitRow := s.commitRow }

end Sys2Proof.Machine
end

