-- ==== Sys2Proof/Machine/Step.lean ====
section
/-! DEFINITION. One step of the machine is one clock cycle (spec/00_scope.md R12, spec/70_reset_and_hazards.md
R169). -/

namespace Sys2Proof.Machine

/-- Takes the current cycle's inputs and runs the cycle. -/
def step (s : State) : Host.Outcome State Fault Refusal := cycle s.currentCycle s.takeCycle

/-- The state with the word of an opcode-table row presented, alone, in the very next cycle: the driver (or
the reader of a read port) presents it from outside (R22; notes/assumptions/1.md). -/
def State.withFetchWord (s : State) (nbits w : Nat) : State := s.present (cycleOfTableWord nbits w)

end Sys2Proof.Machine
end

