-- ==== Sys2Proof/WellFormed.lean ====
section
/-! DEFINITION. Which instructions a driver's stream may hold. The operand widths of Instr already admit
exactly the values the encoding admits, so what is left to check is spec/30_encoding.md R72: "a
well-formed command stream does not contain" the reserved words. The machine itself runs every
instruction, well-formed or not (R96, R97). -/

namespace Sys2Proof

/-- The instruction is not one of the two reserved words (R64, R72). -/
def Instr.wellFormed (i : Instr) : Bool :=
  match i with
  | .nop => true
  | .selectRow _ => true
  | .prepareLatch => true
  | .pushBit _ => true
  | .clearRow _ => true
  | .latchRegister => true
  | .rsvd6 => false
  | .rsvd7 => false
  | .srGet _ => true
  | .fbRead _ => true

/-- The instruction is a command: it is presented at the command port (R62, R68, R69). -/
def Instr.isCommand (i : Instr) : Bool := i.port == .command

/-- A well-formed command stream: commands only, none of them reserved (R72). -/
def commandStreamWellFormed (is : List Instr) : Bool :=
  is.all fun i => i.isCommand && i.wellFormed

end Sys2Proof
end

