-- ==== Sys2Proof/Machine/Assembler.lean ====
section
/-! DEFINITION. The assembly spellings of the commands (spec/30_encoding.md R72): a mnemonic and an optional
decimal operand. A line is given as its two tokens (notes/assumptions/21.md). -/

namespace Sys2Proof.Machine

/-- The row operand of a line, decimal 0..31 (R72). -/
def asmRow (operand : Option Nat) : Option RowOperand :=
  match operand with
  | some n => if n < 32 then some (BitVec.ofNat 5 n) else none
  | none => none

/-- The bit operand of a line, 0 or 1 (R72). -/
def asmBit (operand : Option Nat) : Option Bool :=
  match operand with
  | some 0 => some false
  | some 1 => some true
  | _ => none

/-- A line without an operand. -/
def asmPlain (i : Instr) (operand : Option Nat) : Option Instr :=
  match operand with
  | none => some i
  | some _ => none

/-- The command a line spells, with the source's call names as synonyms; none for anything else, the
reserved words among it (R72). -/
def assemble (mnemonic : String) (operand : Option Nat) : Option Instr :=
  if mnemonic = "NOP" then asmPlain .nop operand
  else if mnemonic = "SELECT_ROW" ∨ mnemonic = "SelectRow" then (asmRow operand).map .selectRow
  else if mnemonic = "PREPARE_LATCH" ∨ mnemonic = "PrepareLatch" then asmPlain .prepareLatch operand
  else if mnemonic = "PUSH_BIT" ∨ mnemonic = "PushBit" then (asmBit operand).map .pushBit
  else if mnemonic = "CLEAR_ROW" ∨ mnemonic = "ClearRow" then (asmRow operand).map .clearRow
  else if mnemonic = "LATCH_REGISTER" ∨ mnemonic = "LatchRegister" then asmPlain .latchRegister operand
  else none

/-- The spelling of a command: its mnemonic and operand; none for the reserved words, which have no
assembly spelling, and for the read ports, which are no commands (R72). -/
def spelling : Instr → Option (String × Option Nat)
  | .nop => some ("NOP", none)
  | .selectRow row => some ("SELECT_ROW", some row.toNat)
  | .prepareLatch => some ("PREPARE_LATCH", none)
  | .pushBit b => some ("PUSH_BIT", some b.toNat)
  | .clearRow row => some ("CLEAR_ROW", some row.toNat)
  | .latchRegister => some ("LATCH_REGISTER", none)
  | .rsvd6 => none
  | .rsvd7 => none
  | .srGet _ => none
  | .fbRead _ => none

end Sys2Proof.Machine
end

