-- ==== Sys2Proof/Machine/Ring.lean ====
section
/-! DEFINITION. The ring form of the shift register (spec/10_state.md R24, spec/40_shift_register_buffer.md
R86), which an implementation may use. It is no part of State: a model holds only `L` (R24). -/

namespace Sys2Proof.Machine

/-- The cell array `A[0..191]` and the oldest index `o` (R24). -/
structure RingBuffer where
  cells : Vector Bool 192
  oldest : Fin 192
deriving DecidableEq, Repr

/-- The ring after reset: every cell 0, `o = 0` (R24, R161). -/
def ringReset : RingBuffer := { cells := Vector.replicate 192 false, oldest := 0 }

/-- `SRPush(b)`: `A[o] <- b`, `o <- (o + 1) mod 192` (R86). -/
def ringPush (a : RingBuffer) (b : Bool) : RingBuffer :=
  { cells := a.cells.set a.oldest.val b a.oldest.isLt, oldest := a.oldest + 1 }

/-- `SRGet(i) = A[(o + i) mod 192]` (R86). -/
def ringGet (a : RingBuffer) (i : Nat) : Bool :=
  a.cells[(a.oldest.val + i) % 192]'(Nat.mod_lt _ (by decide))

/-- The one-step clear: `A[j] <- 0` for every `j`, `o` unchanged (R85). -/
def ringClear (a : RingBuffer) : RingBuffer := { a with cells := Vector.replicate 192 false }

/-- The ring holds the logical value `L`: `L[i] = A[(o + i) mod 192]` for every `i` (R24). -/
def ringRepresents (a : RingBuffer) (l : Buffer) : Prop := ∀ i < 192, srGet l i = ringGet a i

end Sys2Proof.Machine
end

