-- ==== Sys2Proof/Machine/Stream.lean ====
section
/-! DEFINITION. Command streams: the command-level view (spec/00_scope.md R12), the pseudo-commands
(spec/30_encoding.md R73) and the scan sequence (spec/43_scan_sequence.md R130, R132). -/

namespace Sys2Proof.Machine

/-- The command-level view: the commands take effect one after another, each completely (R12, R49). -/
def runCommands : List Instr → State → Host.Outcome State Fault Refusal
  | [], s => .next s
  | i :: is, s => andThen (exec i s) (runCommands is)

/-- The cycles that present a command stream, one command a cycle and no read. Only a command is
presented at the command port; a read leaves the cycle idle there. -/
def cyclesOf (is : List Instr) : List PortCycle := is.map fun i => cycleOfWord (encode i)

/-- The bits an instruction pushes, oldest first: PUSH_BIT its own, CLEAR_ROW 192 zeros (R83, R94). -/
def pushedBits : Instr → List Bool
  | .pushBit b => [b]
  | .clearRow _ => zeroPushes
  | .nop => []
  | .selectRow _ => []
  | .prepareLatch => []
  | .latchRegister => []
  | .rsvd6 => []
  | .rsvd7 => []
  | .srGet _ => []
  | .fbRead _ => []

/-- The push history `h[1], ..., h[n]` of a stream, oldest first (R83). -/
def pushHistory (is : List Instr) : List Bool := is.flatMap pushedBits

/-- The RowAddress after one instruction, as a function of the one before (R25, R165). -/
def nextRowAddress (r : RowAddress) : Instr → RowAddress
  | .selectRow row => rowAddressOf row
  | .clearRow row => rowAddressOf row
  | .nop => r
  | .prepareLatch => r
  | .pushBit _ => r
  | .latchRegister => r
  | .rsvd6 => r
  | .rsvd7 => r
  | .srGet _ => r
  | .fbRead _ => r

/-- The RowAddress the last SELECT_ROW or CLEAR_ROW of a stream leaves, or the one before the stream (R165). -/
def lastRowAddress (is : List Instr) (r : RowAddress) : RowAddress := is.foldl nextRowAddress r

/-- One PUSH_BIT for each bit of a list, in order. -/
def pushBits (bs : List Bool) : List Instr := bs.map .pushBit

/-- The bits of a plane in push order, column 0 first (R73). -/
def planeBits (v : Plane) : List Bool := (List.range 32).map fun x => v.getLsbD x

/-- `PUSH_PLANE v` (R73). -/
def pushPlane (v : Plane) : List Instr := pushBits (planeBits v)

/-- A payload: the six planes of one row-pair (R13, R130). -/
structure Payload where
  topR : Plane
  topG : Plane
  topB : Plane
  bottomR : Plane
  bottomG : Plane
  bottomB : Plane
deriving DecidableEq, Repr

/-- `PUSH_PAYLOAD tR tG tB bR bG bB` (R73). -/
def pushPayload (p : Payload) : List Instr :=
  pushPlane p.topR ++ pushPlane p.topG ++ pushPlane p.topB ++
    pushPlane p.bottomR ++ pushPlane p.bottomG ++ pushPlane p.bottomB

/-- `SCAN_STEP i, payload` for a row-pair `i` in 0..15 (R73, R130). -/
def scanStep (i : RowAddress) (p : Payload) : List Instr :=
  [.clearRow (i.setWidth 5), .prepareLatch, .selectRow (i.setWidth 5 + 1)] ++ pushPayload p ++
    [.latchRegister]

/-- A full pass: the scan steps of the row-pairs 0, 1, ..., 15, each with its own payload (R132). -/
def fullPass (ps : RowAddress → Payload) : List Instr :=
  (List.range 16).flatMap fun i => scanStep (BitVec.ofNat 4 i) (ps (BitVec.ofNat 4 i))

end Sys2Proof.Machine
end

