-- ==== Sys2Proof/Safety.lean ====
section
/-! DEFINITION. What a safe run is, and the invariant and relations the statements use
(spec/60_exceptions.md R140, spec/42_frame_commit_decoder.md R115). -/

namespace Sys2Proof.Machine

/-- The outcome is a next state: neither a fault nor a refusal (R140). -/
def Completes (o : Host.Outcome State Fault Refusal) : Prop := ∃ t, o = .next t

/-- `k` clock cycles. -/
def runCycles : Nat → State → Host.Outcome State Fault Refusal
  | 0, s => .next s
  | k + 1, s => andThen (step s) (runCycles k)

/-- A safe run: every number of cycles completes (R140). -/
def SafeRun (s : State) : Prop := ∀ k, Completes (runCycles k s)

/-- The frame buffer shows the rows `top` and `bottom` in the row-pair `r`. -/
def ShowsRows (f : FrameBuffer) (r : RowAddress) (top bottom : Row) : Prop :=
  fbRow f (topY r) = top ∧ fbRow f (bottomY r) = bottom

/-- The top pixel of a payload at a column. -/
def Payload.topPixel (p : Payload) (x : Column) : Pixel :=
  { r := p.topR.getLsbD x.toNat, g := p.topG.getLsbD x.toNat, b := p.topB.getLsbD x.toNat }

/-- The bottom pixel of a payload at a column. -/
def Payload.bottomPixel (p : Payload) (x : Column) : Pixel :=
  { r := p.bottomR.getLsbD x.toNat, g := p.bottomG.getLsbD x.toNat, b := p.bottomB.getLsbD x.toNat }

/-- While the commit notification is up, it tells the truth: the display is enabled, `commit_row` is the
current RowAddress, and the two rows it names hold the decode of the buffer (R112, R115). -/
def NotifiedCommit (s : State) : Prop :=
  s.commitValid = true →
    s.displayEn = true ∧ s.commitRow = s.ra ∧
      ShowsRows s.fb s.commitRow (decodeTop s.sr) (decodeBottom s.sr)

/-- The state without what the read ports hold or are about to be asked: `fb_rd_data`, the record of
`sr_rd_bit`, and the read requests among the inputs. -/
def State.withoutReads (s : State) : State :=
  { s with fbRdData := 0, srRdBit := false, inputs := s.inputs.map Machine.withoutReads }

/-- The state without LatchState. -/
def State.withoutLatch (s : State) : State := { s with ls := .visible }

end Sys2Proof.Machine
end

