-- ==== Sys2Proof/Certificates/Slice0/Obligations.lean ====
section
/-! DEFINITION. The statements about the block, for the provers. `srGet l i` is the spec's `L[i]`,
`fbPixel f y x` its `FB[y][x]`, `fbRow f y` its row `FB[y]`. An equation `t = { s with … }` names every
field that may differ between `s` and `t`; every other field is unchanged. -/

open Sys2Proof Sys2Proof.Machine

/-! ### Encoding -/

/-- R62: exactly one row of the opcode map matches any 9-bit word, and it is the decoded command's. -/
def Obligations.ExactlyOneTableRowMatches : Prop :=
  ∀ w : CommandWord,
    (∃! m, m ∈ commandMatches ∧ w &&& 0x1C0 = m) ∧
      (w &&& 0x1C0).toNat = tableMatch (decodeCommand w) ∧ tableMask (decodeCommand w) = 0x1C0

/-- The fourteen command words of spec/95_test_vectors.md 2.1 decode as listed there. The last two conjuncts,
one word for each read port, are no vectors of the spec: the ports and their fields are the spec's
(spec/30_encoding.md section 4), but that an 8-bit number in 0x20 to 0x3F is a frame-buffer read and any
other an SR read index is the model's DESIGN CHOICE (notes/assumptions/3.md). -/
def Obligations.ListedWordsDecode : Prop :=
  decodeTableWord 16 0x000 = some .nop ∧ decodeTableWord 16 0x03F = some .nop ∧
  decodeTableWord 16 0x041 = some (.selectRow 1) ∧ decodeTableWord 16 0x060 = some (.selectRow 0) ∧
  decodeTableWord 16 0x05F = some (.selectRow 31) ∧ decodeTableWord 16 0x080 = some .prepareLatch ∧
  decodeTableWord 16 0x0C0 = some (.pushBit false) ∧ decodeTableWord 16 0x0E0 = some (.pushBit true) ∧
  decodeTableWord 16 0x0FF = some (.pushBit true) ∧ decodeTableWord 16 0x103 = some (.clearRow 3) ∧
  decodeTableWord 16 0x140 = some .latchRegister ∧ decodeTableWord 16 0x15F = some .latchRegister ∧
  decodeTableWord 16 0x180 = some .rsvd6 ∧ decodeTableWord 16 0x1FF = some .rsvd7 ∧
  decodeTableWord 8 0xBF = some (.srGet 191) ∧ decodeTableWord 8 0x27 = some (.fbRead 7)

/-- Decode and encode agree on every instruction with every operand: no bit of an encoding is dropped
(R61, R62, R66 to R70). -/
def Obligations.DecodeOfEncodeIsTheInstruction : Prop := ∀ i : Instr, decode (encode i) = .ok i

/-- R63: a command's ignored bits do not change what it decodes to, and its canonical word is the word with
the ignored bits 0. -/
def Obligations.IgnoredBitsDoNotMatter : Prop :=
  ∀ w : CommandWord,
    encode (decodeCommand w) = .command (w &&& usedBits (decodeCommand w)) ∧
      ∀ v : CommandWord, v &&& usedBits (decodeCommand w) = w &&& usedBits (decodeCommand w) →
        decodeCommand v = decodeCommand w

/-- R72: the spelling of a command assembles to it, the source's call names assemble as the mnemonics do,
and exactly the well-formed commands have a spelling. That a line is given as two tokens is the model's
choice (notes/assumptions/21.md). -/
def Obligations.SpellingAssembles : Prop :=
  (∀ i m o, spelling i = some (m, o) → assemble m o = some i) ∧
  (∀ o, assemble "SelectRow" o = assemble "SELECT_ROW" o ∧
    assemble "PrepareLatch" o = assemble "PREPARE_LATCH" o ∧
    assemble "PushBit" o = assemble "PUSH_BIT" o ∧
    assemble "ClearRow" o = assemble "CLEAR_ROW" o ∧
    assemble "LatchRegister" o = assemble "LATCH_REGISTER" o) ∧
  ∀ i, (spelling i).isSome = commandStreamWellFormed [i]

/-- R66, R9: the RowAddress of a ROW operand is `(row - 1) mod 16`, Euclidean, and equals
`(row[3:0] + 15) mod 16`. -/
def Obligations.RowOperandIsNormalised : Prop :=
  ∀ row : RowOperand,
    ((rowAddressOf row).toNat : Int) = ((row.toNat : Int) - 1) % 16 ∧
      (rowAddressOf row).toNat = (row.toNat % 16 + 15) % 16

/-- R26: `topY(r) = r`, `bottomY(r) = r + 16`, and every row of the frame buffer belongs to exactly one
row-pair, `y mod 16`. -/
def Obligations.EveryRowIsInOneRowPair : Prop :=
  (∀ r : RowAddress, (topY r).toNat = r.toNat ∧ (bottomY r).toNat = r.toNat + 16) ∧
    ∀ (y : RowNumber) (r : RowAddress), (topY r = y ∨ bottomY r = y) ↔ r.toNat = y.toNat % 16

/-! ### What each instruction does -/

/-- R90: NOP changes no state but the fall of `commit_valid`, and is a cycle with `cmd_valid = 0`. -/
def Obligations.NopChangesNothing : Prop :=
  (∀ w : CommandWord, w &&& 0x1C0 = 0x000 → decodeCommand w = .nop) ∧
  (∀ s, exec .nop s = .next { s with commitValid := false }) ∧
  ∀ (p : PortCycle) (w : CommandWord) (s : State), w &&& 0x1C0 = 0x000 →
    cycle { p with cmdValid := true, cmd := w } s = cycle { p with cmdValid := false } s

/-- R91: SELECT_ROW sets RowAddress to `(row - 1) mod 16` and changes nothing else. -/
def Obligations.SelectRowSetsRowAddress : Prop :=
  (∀ w : CommandWord, w &&& 0x1C0 = 0x040 → decodeCommand w = .selectRow (w.extractLsb' 0 5)) ∧
  ∀ (row : RowOperand) (s : State), ∃ t, exec (.selectRow row) s = .next t ∧
    (t.ra.toNat : Int) = ((row.toNat : Int) - 1) % 16 ∧
    t.ra.toNat = (row.toNat % 16 + 15) % 16 ∧
    t = { s with ra := t.ra, commitValid := false }

/-- R92: PREPARE_LATCH makes LatchState Hidden, so `display_en` is 0, and changes nothing else. -/
def Obligations.PrepareLatchHides : Prop :=
  (∀ w : CommandWord, w &&& 0x1C0 = 0x080 → decodeCommand w = .prepareLatch) ∧
  ∀ s : State, ∃ t, exec .prepareLatch s = .next t ∧ t.displayEn = false ∧
    t = { s with ls := .hidden, commitValid := false }

/-- R93, R80: PUSH_BIT moves every bit one logical index down, discarding `L[0]`, puts its operand at
`L[191]`, and changes nothing else. -/
def Obligations.PushBitShiftsTheBuffer : Prop :=
  (∀ w : CommandWord, w &&& 0x1C0 = 0x0C0 → decodeCommand w = .pushBit (w.getLsbD 5)) ∧
  ∀ (b : Bool) (s : State), ∃ t, exec (.pushBit b) s = .next t ∧
    (∀ i ≤ 190, srGet t.sr i = srGet s.sr (i + 1)) ∧
    srGet t.sr 191 = b ∧
    t = { s with sr := t.sr, commitValid := false }

/-- R94: CLEAR_ROW selects the row as SELECT_ROW does, clears the whole buffer, and changes nothing else,
the frame buffer in particular; it equals SELECT_ROW followed by 192 pushes of zero. -/
def Obligations.ClearRowIsSelectRowAndZeroPushes : Prop :=
  (∀ w : CommandWord, w &&& 0x1C0 = 0x100 → decodeCommand w = .clearRow (w.extractLsb' 0 5)) ∧
  ∀ (row : RowOperand) (s : State), ∃ t, exec (.clearRow row) s = .next t ∧
    (t.ra.toNat : Int) = ((row.toNat : Int) - 1) % 16 ∧
    (∀ i ≤ 191, srGet t.sr i = false) ∧
    t = { s with sr := t.sr, ra := t.ra, commitValid := false } ∧
    runCommands (.selectRow row :: pushBits zeroPushes) s = .next t

/-- R95, R110, R111: LATCH_REGISTER writes the rows `RA` and `RA + 16` from the six planes of the buffer,
leaves every other pixel, makes LatchState Visible, notifies the commit, and keeps the buffer and
RowAddress. -/
def Obligations.LatchRegisterCommitsTheBuffer : Prop :=
  (∀ w : CommandWord, w &&& 0x1C0 = 0x140 → decodeCommand w = .latchRegister) ∧
  ∀ s : State, ∃ t, exec .latchRegister s = .next t ∧
    (∀ x : Column, fbPixel t.fb (topY s.ra) x =
      { r := srGet s.sr (0 + x.toNat), g := srGet s.sr (32 + x.toNat), b := srGet s.sr (64 + x.toNat) }) ∧
    (∀ x : Column, fbPixel t.fb (bottomY s.ra) x =
      { r := srGet s.sr (96 + x.toNat), g := srGet s.sr (128 + x.toNat), b := srGet s.sr (160 + x.toNat) }) ∧
    (∀ (y : RowNumber) (x : Column), y ≠ topY s.ra → y ≠ bottomY s.ra →
      fbPixel t.fb y x = fbPixel s.fb y x) ∧
    t.displayEn = true ∧
    t = { s with ls := .visible, fb := t.fb, commitValid := true, commitRow := s.ra }

/-- R96: the reserved words change no state but the fall of `commit_valid`, exactly as NOP. -/
def Obligations.ReservedWordsActAsNop : Prop :=
  (∀ w : CommandWord, (w &&& 0x1C0 = 0x180 → decodeCommand w = .rsvd6) ∧
    (w &&& 0x1C0 = 0x1C0 → decodeCommand w = .rsvd7)) ∧
  ∀ s : State, exec .rsvd6 s = .next { s with commitValid := false } ∧
    exec .rsvd7 s = .next { s with commitValid := false } ∧
    exec .rsvd6 s = exec .nop s ∧ exec .rsvd7 s = exec .nop s

/-- R82, R81: SR_GET's value is the buffer bit at the index, and 0 for 192 to 255; no state of the block
changes. That the value is kept in the field `srRdBit` is the model's choice (notes/assumptions/2.md). -/
def Obligations.SrGetReadsTheBufferBit : Prop :=
  ∀ (idx : SrIndex) (s : State), ∃ t, exec (.srGet idx) s = .next t ∧
    (idx.toNat ≤ 191 → t.srRdBit = srGet s.sr idx.toNat) ∧
    (192 ≤ idx.toNat → t.srRdBit = false) ∧
    t = { s with srRdBit := t.srRdBit }

/-- R114, R43: FB_READ loads `fb_rd_data` with the packed row, R, G and B of pixel `x` at bits `3x`, `3x+1`
and `3x+2`, and changes nothing else. -/
def Obligations.FbReadLoadsThePackedRow : Prop :=
  ∀ (y : RowNumber) (s : State), ∃ t, exec (.fbRead y) s = .next t ∧
    (∀ x : Column,
      t.fbRdData.getLsbD (3 * x.toNat + 0) = (fbPixel s.fb y x).r ∧
      t.fbRdData.getLsbD (3 * x.toNat + 1) = (fbPixel s.fb y x).g ∧
      t.fbRdData.getLsbD (3 * x.toNat + 2) = (fbPixel s.fb y x).b) ∧
    t = { s with fbRdData := t.fbRdData }

/-- R43: the packing of a row into the 96-bit read word, and that the word determines the row. -/
def Obligations.PackingPlacesEachChannel : Prop :=
  (∀ (row : Row) (x : Nat) (h : x < 32),
    (pack row).getLsbD (3 * x + 0) = (row[x]).r ∧
    (pack row).getLsbD (3 * x + 1) = (row[x]).g ∧
    (pack row).getLsbD (3 * x + 2) = (row[x]).b) ∧
  ∀ row row' : Row, pack row = pack row' → row = row'

/-- R117: the decoder is a per-column map: two buffers that agree on the six bits of a column decode to
the same two pixels there. -/
def Obligations.DecoderIsPerColumn : Prop :=
  ∀ (l m : Buffer) (x : Nat) (h : x < 32), (∀ p < 6, srGet l (32 * p + x) = srGet m (32 * p + x)) →
    (decodeTop l)[x] = (decodeTop m)[x] ∧ (decodeBottom l)[x] = (decodeBottom m)[x]

/-! ### One clock cycle -/

/-- A cycle runs what its ports present (R49, R65, R142). With `rst = 0` a presented command is run by exec
from the state after the SR read and, if requested, the frame-buffer read; with no command, a requested
frame-buffer read, or else the SR read alone, is run by exec and `commit_valid` falls. -/
def Obligations.StepRunsTheDecodedInstruction : Prop :=
  ∀ (s : State) (p : PortCycle) (rest : List PortCycle), s.inputs = p :: rest → p.rst = false →
    (∀ i, p.cmdValid = true → p.fbRdEn = false → decode (.command p.cmd) = .ok i →
      step s = exec i ((s.setInputs rest).readBit p.srRdIdx)) ∧
    (∀ i, p.cmdValid = true → p.fbRdEn = true → decode (.command p.cmd) = .ok i →
      step s = exec i (((s.setInputs rest).readBit p.srRdIdx).readRow p.fbRdY)) ∧
    (∀ i, p.cmdValid = false → decode (.fbRead (fbReadWord p.fbRdEn p.fbRdY)) = .ok i →
      step s = andThen (exec i ((s.setInputs rest).readBit p.srRdIdx)) fun t => .next t.noteNoCommit) ∧
    (∀ i, p.cmdValid = false → p.fbRdEn = false → decode (.srRead p.srRdIdx) = .ok i →
      step s = andThen (exec i (s.setInputs rest)) fun t => .next t.noteNoCommit)

/-- The model's interface (notes/assumptions/1.md and 3.md): a word placed by `withFetchWord` is run by the
very next step, from a state whose inputs are as before. -/
def Obligations.PresentedWordRunsNext : Prop :=
  ∀ s : State,
    (∀ w : CommandWord, decodeTableWord 16 w.toNat = some (decodeCommand w) ∧
      step (s.withFetchWord 16 w.toNat) = exec (decodeCommand w) (s.readBit 0)) ∧
    (∀ y : RowNumber, decodeTableWord 8 (32 + y.toNat) = some (.fbRead y) ∧
      step (s.withFetchWord 8 (32 + y.toNat)) =
        andThen (exec (.fbRead y) (s.readBit 0)) fun t => .next t.noteNoCommit) ∧
    (∀ idx : SrIndex, idx.toNat < 32 ∨ 64 ≤ idx.toNat → decodeTableWord 8 idx.toNat = some (.srGet idx) ∧
      step (s.withFetchWord 8 idx.toNat) =
        andThen (exec (.srGet idx) s) fun t => .next t.noteNoCommit)

/-- R140: every instruction, and every clock cycle in every state, ends in a next state: nothing traps,
stops, hangs or is refused, and no number of cycles ends a run. -/
def Obligations.NothingStopsTheBlock : Prop :=
  (∀ i s, Completes (exec i s)) ∧ ∀ s, SafeRun s

/-- R65: in a cycle in which no command is accepted the command word is ignored, and with `rst = 0` only
the read ports' values and `commit_valid` change. -/
def Obligations.NoCommandChangesNoBlockState : Prop :=
  (∀ (p : PortCycle) (w : CommandWord) (s : State), p.cmdValid = false ∨ p.rst = true →
    cycle { p with cmd := w } s = cycle p s) ∧
  ∀ (p : PortCycle) (s : State), p.cmdValid = false → p.rst = false → ∃ t, cycle p s = .next t ∧
    (p.fbRdEn = false → t.fbRdData = s.fbRdData) ∧
    t = { s with commitValid := false, fbRdData := t.fbRdData, srRdBit := t.srRdBit }

/-- R161: after a reset step every state element has its reset value, whatever the state before and whatever
else the cycle presented. -/
def Obligations.ResetStepSetsEveryElement : Prop :=
  ∀ (s : State) (p : PortCycle) (rest : List PortCycle), s.inputs = p :: rest → p.rst = true →
    ∃ t, step s = .next t ∧
      (∀ i ≤ 191, srGet t.sr i = false) ∧ t.ra = 0 ∧ t.ls = .visible ∧ t.displayEn = true ∧
      (∀ (y : RowNumber) (x : Column), fbPixel t.fb y x = { r := false, g := false, b := false }) ∧
      t.commitValid = false ∧ t.commitRow = 0 ∧ t.fbRdData = 0 ∧ t.inputs = rest

/-- R160: holding `rst = 1` for several cycles holds the reset state, and what the other ports carry
meanwhile makes no difference. The record of `sr_rd_bit`, the model's own, is left out. -/
def Obligations.HoldingResetHoldsTheResetState : Prop :=
  ∀ (ps rest : List PortCycle) (s : State), ps ≠ [] → (∀ p ∈ ps, p.rst = true) → s.inputs = ps ++ rest →
    ∃ t, runCycles ps.length s = .next t ∧
      t = { State.reset with srRdBit := t.srRdBit, inputs := rest }

/-- R161, R28: the reset state. -/
def Obligations.ResetStateHasTheResetValues : Prop :=
  (∀ i ≤ 191, srGet State.reset.sr i = false) ∧ State.reset.ra = 0 ∧ State.reset.ls = .visible ∧
    State.reset.displayEn = true ∧
    (∀ (y : RowNumber) (x : Column),
      fbPixel State.reset.fb y x = { r := false, g := false, b := false }) ∧
    State.reset.commitValid = false ∧ State.reset.commitRow = 0 ∧ State.reset.fbRdData = 0

/-- R114: at every clock edge `fb_rd_data` takes the packed row if a read is requested, with the frame
buffer as it was before any commit at the same edge, keeps its value if none is, and takes 0 in a reset
cycle. LatchState makes no difference. -/
def Obligations.FrameBufferReadPort : Prop :=
  ∀ (p : PortCycle) (s : State), ∃ t, cycle p s = .next t ∧
    (p.rst = true → t.fbRdData = 0) ∧
    (p.rst = false → p.fbRdEn = true → t.fbRdData = pack (fbRow s.fb p.fbRdY)) ∧
    (p.rst = false → p.fbRdEn = false → t.fbRdData = s.fbRdData)

/-- R50: a read in the cycle of a LATCH_REGISTER returns the row as it was before that commit, and a read in
any later cycle, with no other commit or reset between, the row as the commit left it; a row the commit does
not write reads the same in either case. -/
def Obligations.ReadInTheCommitCycleReturnsTheOldRow : Prop :=
  ∀ (p q : PortCycle) (between rest : List PortCycle) (s : State),
    s.inputs = p :: between ++ q :: rest →
    acceptedCommand p = some .latchRegister → p.fbRdEn = true →
    (∀ c ∈ between, c.rst = false ∧ acceptedCommand c ≠ some .latchRegister) →
    q.rst = false → q.fbRdEn = true →
    ∃ t u v, step s = .next t ∧ runCycles between.length t = .next u ∧ step u = .next v ∧
      t.fbRdData = pack (fbRow s.fb p.fbRdY) ∧
      (q.fbRdY = topY s.ra → v.fbRdData = pack (decodeTop s.sr)) ∧
      (q.fbRdY = bottomY s.ra → v.fbRdData = pack (decodeBottom s.sr)) ∧
      (q.fbRdY ≠ topY s.ra → q.fbRdY ≠ bottomY s.ra → v.fbRdData = pack (fbRow s.fb q.fbRdY))

/-- R82, R51: in every cycle, reset cycles included, `sr_rd_bit` shows the buffer as the cycle found it. That
the value is recorded in `srRdBit` is the model's choice (notes/assumptions/2.md), and that a reset cycle
shows the buffer before the reset is an inference (notes/assumptions/14.md). -/
def Obligations.SrReadShowsTheBufferBeforeTheCommand : Prop :=
  ∀ s : State, ∃ t, step s = .next t ∧ t.srRdBit = s.outputs.srRdBit ∧
    (s.currentCycle.srRdIdx.toNat ≤ 191 →
      s.outputs.srRdBit = srGet s.sr s.currentCycle.srRdIdx.toNat) ∧
    (192 ≤ s.currentCycle.srRdIdx.toNat → s.outputs.srRdBit = false)

/-- R115: the commit notification at every edge with `rst = 0`. -/
def Obligations.CommitNotificationFollowsEachLatch : Prop :=
  ∀ (p : PortCycle) (s : State), p.rst = false → ∃ t, cycle p s = .next t ∧
    (acceptedCommand p = some .latchRegister →
      t.commitValid = true ∧ t.commitRow = s.ra ∧ t.displayEn = true ∧
        ShowsRows t.fb s.ra (decodeTop s.sr) (decodeBottom s.sr)) ∧
    (acceptedCommand p ≠ some .latchRegister → t.commitValid = false ∧ t.commitRow = s.commitRow)

/-- R29: the LatchState transitions, complete. -/
def Obligations.LatchStateTransitions : Prop :=
  ∀ (p : PortCycle) (s : State), ∃ t, cycle p s = .next t ∧
    (p.rst = true → t.ls = .visible) ∧
    (acceptedCommand p = some .prepareLatch → t.ls = .hidden) ∧
    (acceptedCommand p = some .latchRegister → t.ls = .visible) ∧
    (p.rst = false → acceptedCommand p ≠ some .prepareLatch → acceptedCommand p ≠ some .latchRegister →
      t.ls = s.ls)

/-- R23, R25, R32, R56: outside reset only PUSH_BIT and CLEAR_ROW write the buffer, only SELECT_ROW and
CLEAR_ROW write RowAddress, and only LATCH_REGISTER writes the frame buffer, in its two rows. -/
def Obligations.OnlyTheNamedCommandsWriteEachElement : Prop :=
  ∀ (p : PortCycle) (s : State), p.rst = false → ∃ t, cycle p s = .next t ∧
    ((∀ b, acceptedCommand p ≠ some (.pushBit b)) → (∀ row, acceptedCommand p ≠ some (.clearRow row)) →
      t.sr = s.sr) ∧
    ((∀ row, acceptedCommand p ≠ some (.selectRow row)) →
      (∀ row, acceptedCommand p ≠ some (.clearRow row)) → t.ra = s.ra) ∧
    (acceptedCommand p ≠ some .latchRegister → t.fb = s.fb) ∧
    ∀ y : RowNumber, y ≠ topY s.ra → y ≠ bottomY s.ra → fbRow t.fb y = fbRow s.fb y

/-! ### Invariant -/

/-- R115, R112: whenever `commit_valid` is up, `display_en` is 1, `commit_row` is RowAddress and the two rows
it names hold the decode of the buffer; every clock cycle keeps this, from every state that has it. -/
def Obligations.EveryStepKeepsNotifiedCommit : Prop :=
  ∀ s t : State, NotifiedCommit s → step s = .next t → NotifiedCommit t

/-- The reset state has the invariant. -/
def Obligations.ResetHasNotifiedCommit : Prop := NotifiedCommit State.reset

/-! ### The shift register over streams -/

/-- R83: the history form. After any stream from reset, `L[191 - k]` is the bit pushed `k` pushes before the
last, or the initial zero if fewer bits were pushed. -/
def Obligations.BufferHoldsThePushHistory : Prop :=
  ∀ is : List Instr, ∃ t, runCommands is State.reset = .next t ∧
    ∀ k ≤ 191, srGet t.sr (191 - k) =
      if k < (pushHistory is).length
        then (pushHistory is).getD ((pushHistory is).length - 1 - k) false
        else false

/-- R84: after at least 192 pushes the buffer depends only on the last 192 bits, and pushing more than 192
bits and then latching uses only the most recent 192. -/
def Obligations.OnlyTheLast192PushesCount : Prop :=
  ∀ (bs : List Bool) (s : State), 192 ≤ bs.length →
    (∃ t, runCommands (pushBits bs) s = .next t ∧
      ∀ k ≤ 191, srGet t.sr k = bs.getD (bs.length - 192 + k) false) ∧
    ∀ k, k + 192 ≤ bs.length →
      runCommands (pushBits bs ++ [.latchRegister]) s =
        runCommands (pushBits (bs.drop k) ++ [.latchRegister]) s

/-- R113: with `n < 192` bits pushed since the previous commit, the next commit decodes the stale bits
`L[n .. 191]` of that commit, moved down to `0 .. 191 - n`, and the `n` new bits above them. -/
def Obligations.ShortPayloadKeepsStaleBits : Prop :=
  ∀ (bs : List Bool) (s : State), bs.length < 192 →
    ∃ t, runCommands (.latchRegister :: pushBits bs ++ [.latchRegister]) s = .next t ∧
      (∀ i, i + bs.length ≤ 191 → srGet t.sr i = srGet s.sr (i + bs.length)) ∧
      (∀ j < bs.length, srGet t.sr (192 - bs.length + j) = bs.getD j false) ∧
      ShowsRows t.fb s.ra (decodeTop t.sr) (decodeBottom t.sr)

/-- R85: 192 pushes of zero clear the buffer, whatever it was; in a ring they leave the oldest index as it
was, so the one-step clear is indistinguishable from them. -/
def Obligations.ZeroPushesClearTheBuffer : Prop :=
  (∀ l : Buffer, zeroPushes.foldl srPush l = srCleared) ∧
    ∀ a : RingBuffer, zeroPushes.foldl ringPush a = ringClear a ∧
      (ringClear a).oldest = a.oldest ∧ ringRepresents (ringClear a) srCleared

/-- R86: the ring form gives the same logical buffer as the shift chain at every step: from any ring that
holds the buffer, and so after any pushes from reset. -/
def Obligations.RingRefinesTheShiftChain : Prop :=
  (∀ (a : RingBuffer) (l : Buffer) (b : Bool), ringRepresents a l →
    ringRepresents (ringPush a b) (srPush l b)) ∧
  ∀ bs : List Bool, ringRepresents (bs.foldl ringPush ringReset) (bs.foldl srPush State.reset.sr)

/-! ### Streams of commands -/

/-- R112: a latch keeps the buffer and RowAddress, and two latches with no push, CLEAR_ROW or SELECT_ROW
between them write identical values. -/
def Obligations.LatchIsIdempotent : Prop :=
  ∀ (is : List Instr) (s : State), (∀ b, .pushBit b ∉ is) → (∀ row, .clearRow row ∉ is) →
    (∀ row, .selectRow row ∉ is) →
    ∃ t u v, exec .latchRegister s = .next t ∧ runCommands is t = .next u ∧
      exec .latchRegister u = .next v ∧
      t.sr = s.sr ∧ t.ra = s.ra ∧ v.fb = t.fb ∧ v.sr = s.sr ∧ v.ra = s.ra

/-- R98: which commands commute, which override, that LATCH_REGISTER commutes with none of PUSH_BIT,
SELECT_ROW, CLEAR_ROW and PREPARE_LATCH, and that commuting with PREPARE_LATCH changes the cycle in which
`display_en` falls. -/
def Obligations.CommandsCommuteAsListed : Prop :=
  (∀ (row row' : RowOperand) (b : Bool) (bs : List Bool) (s : State),
    runCommands [.selectRow row, .pushBit b] s = runCommands [.pushBit b, .selectRow row] s ∧
    runCommands [.selectRow row, .prepareLatch] s = runCommands [.prepareLatch, .selectRow row] s ∧
    runCommands [.prepareLatch, .pushBit b] s = runCommands [.pushBit b, .prepareLatch] s ∧
    runCommands [.prepareLatch, .clearRow row] s = runCommands [.clearRow row, .prepareLatch] s ∧
    runCommands [.selectRow row, .selectRow row'] s = runCommands [.selectRow row'] s ∧
    runCommands [.selectRow row, .clearRow row'] s = runCommands [.clearRow row'] s ∧
    runCommands (pushBits bs ++ [.clearRow row]) s = runCommands [.clearRow row] s) ∧
  (∀ (row : RowOperand) (b : Bool) (s : State), s.displayEn = true →
    ∃ t u v w, exec .prepareLatch s = .next t ∧ exec (.pushBit b) s = .next u ∧
      exec (.selectRow row) s = .next v ∧ exec (.clearRow row) s = .next w ∧
      t.displayEn = false ∧ u.displayEn = true ∧ v.displayEn = true ∧ w.displayEn = true) ∧
  ∀ i : Instr, ((∃ b, i = .pushBit b) ∨ (∃ row, i = .selectRow row) ∨ (∃ row, i = .clearRow row) ∨
      i = .prepareLatch) →
    ∃ s t u, runCommands [.latchRegister, i] s = .next t ∧ runCommands [i, .latchRegister] s = .next u ∧
      (t.fb ≠ u.fb ∨ t.ls ≠ u.ls)

/-- R165: a commit uses the RowAddress left by the last SELECT_ROW or CLEAR_ROW accepted before the latch,
and a SELECT_ROW after it changes no row. -/
def Obligations.CommitUsesTheLastSelectedRow : Prop :=
  ∀ (is : List Instr) (row : RowOperand) (s : State), ∃ t u v,
    runCommands is s = .next t ∧ exec .latchRegister t = .next u ∧ exec (.selectRow row) u = .next v ∧
      u.commitRow = lastRowAddress is s.ra ∧
      ShowsRows u.fb (lastRowAddress is s.ra) (decodeTop t.sr) (decodeBottom t.sr) ∧ v.fb = u.fb

/-- R133: a CLEAR_ROW followed by at least 192 pushes and a SELECT_ROW before the next latch changes nothing
in the end state, so a scan step may leave it out; followed by fewer pushes it leaves zeros where the stale
bits were. `CLEAR_ROW i` selects the row-pair `(i - 1) mod 16`. -/
def Obligations.ClearRowIsRedundantBeforeAFullPayload : Prop :=
  (∀ (row row' : RowOperand) (bs cs : List Bool) (s : State), 192 ≤ bs.length + cs.length →
    runCommands (.clearRow row :: pushBits bs ++ .selectRow row' :: pushBits cs ++ [.latchRegister]) s =
      runCommands (pushBits bs ++ .selectRow row' :: pushBits cs ++ [.latchRegister]) s) ∧
  (∀ (i : RowAddress) (p : Payload) (s : State),
    runCommands (scanStep i p) s = runCommands (scanStep i p).tail s) ∧
  ∀ (row : RowOperand) (bs : List Bool) (s : State), bs.length < 192 →
    ∃ t, runCommands (.clearRow row :: pushBits bs) s = .next t ∧
      t.ra = rowAddressOf row ∧ ((rowAddressOf row).toNat : Int) = ((row.toNat : Int) - 1) % 16 ∧
      ∀ i, i + bs.length ≤ 191 → srGet t.sr i = false

/-- R130: a scan step is 196 commands, all of them well formed. -/
def Obligations.ScanStepHas196Commands : Prop :=
  ∀ (i : RowAddress) (p : Payload),
    (scanStep i p).length = 196 ∧ commandStreamWellFormed (scanStep i p) = true

/-- R131: the effect of one scan step, from any state: RowAddress is the row-pair, the buffer and the two
rows hold the payload, the display is enabled, the commit is notified, and every other row is kept. -/
def Obligations.ScanStepShowsItsPayload : Prop :=
  ∀ (i : RowAddress) (p : Payload) (s : State), ∃ t, runCommands (scanStep i p) s = .next t ∧
    t.ra = i ∧ t.ls = .visible ∧ t.commitValid = true ∧ t.commitRow = i ∧
    (∀ x < 32, srGet t.sr (32 * 0 + x) = p.topR.getLsbD x ∧ srGet t.sr (32 * 1 + x) = p.topG.getLsbD x ∧
      srGet t.sr (32 * 2 + x) = p.topB.getLsbD x ∧ srGet t.sr (32 * 3 + x) = p.bottomR.getLsbD x ∧
      srGet t.sr (32 * 4 + x) = p.bottomG.getLsbD x ∧ srGet t.sr (32 * 5 + x) = p.bottomB.getLsbD x) ∧
    (∀ x : Column, fbPixel t.fb (topY i) x = p.topPixel x ∧ fbPixel t.fb (bottomY i) x = p.bottomPixel x) ∧
    (∀ y : RowNumber, y ≠ topY i → y ≠ bottomY i → fbRow t.fb y = fbRow s.fb y) ∧
    t.fbRdData = s.fbRdData

/-- R132: a full pass of 16 scan steps leaves every row holding its half of its row-pair's payload, whatever
the state before. -/
def Obligations.FullPassCoversThePanel : Prop :=
  ∀ (ps : RowAddress → Payload) (s : State), ∃ t, runCommands (fullPass ps) s = .next t ∧
    ∀ (i : RowAddress) (x : Column),
      fbPixel t.fb (topY i) x = (ps i).topPixel x ∧ fbPixel t.fb (bottomY i) x = (ps i).bottomPixel x

/-! ### Cycles against commands -/

/-- R12: the cycle-level machine, given a stream of commands one a cycle, leaves the state the command-level
machine leaves, but for the model's own record of `sr_rd_bit` and the inputs it consumed. -/
def Obligations.CyclesAgreeWithCommands : Prop :=
  ∀ (is : List Instr) (rest : List PortCycle) (s : State), (∀ i ∈ is, i.isCommand = true) →
    s.inputs = cyclesOf is ++ rest →
    ∃ t u, runCycles is.length s = .next t ∧ runCommands is s = .next u ∧
      t = { u with srRdBit := t.srRdBit, inputs := rest }

/-- R135: with a scan step's commands in consecutive cycles from cycle 0, `display_en` is 0 from cycle 2 to
cycle 195, and 1 in cycle 196, in which `commit_valid` is 1. -/
def Obligations.DisplayIsOffWhileAScanStepShifts : Prop :=
  ∀ (i : RowAddress) (p : Payload) (rest : List PortCycle) (s : State),
    s.inputs = cyclesOf (scanStep i p) ++ rest →
    (∀ k, 2 ≤ k → k ≤ 195 → ∃ t, runCycles k s = .next t ∧ t.displayEn = false) ∧
      ∃ t, runCycles 196 s = .next t ∧ t.displayEn = true ∧ t.commitValid = true ∧ t.commitRow = i

/-- R134, R151: however many cycles present nothing, the block's state stays as it was, and `commit_valid`
is down after the first of them. -/
def Obligations.IdleCyclesChangeNothing : Prop :=
  ∀ (n : Nat) (s : State), s.inputs = [] → ∃ t, runCycles n s = .next t ∧
    t = { s with commitValid := s.commitValid && (n == 0), srRdBit := t.srRdBit }

/-- R47, R116: the read ports cannot disturb the block: two states that differ only in what the read ports
hold and will be asked go through the same states, apart from those, for any number of cycles. -/
def Obligations.ReadsCannotDisturbTheBlock : Prop :=
  ∀ (k : Nat) (s s' : State), s.withoutReads = s'.withoutReads →
    ∃ t t', runCycles k s = .next t ∧ runCycles k s' = .next t' ∧ t.withoutReads = t'.withoutReads

/-- R27: LatchState conditions nothing in the block: two states that differ only in it go through states
that differ at most in it, for any number of cycles. -/
def Obligations.LatchStateGatesOnlyTheDisplay : Prop :=
  ∀ (k : Nat) (s s' : State), s.withoutLatch = s'.withoutLatch →
    ∃ t t', runCycles k s = .next t ∧ runCycles k s' = .next t' ∧ t.withoutLatch = t'.withoutLatch
end

