-- ==== Sys2Proof/Laws/State.lean ====
section
/-! SUPPORT. One lemma for each field under each update of State, so that no proof unfolds an update. -/

namespace Sys2Proof.Machine

@[simp] theorem State.setBuffer_sr (s : State) (l : Buffer) : (s.setBuffer l).sr = l := rfl
@[simp] theorem State.setBuffer_ra (s : State) (l : Buffer) : (s.setBuffer l).ra = s.ra := rfl
@[simp] theorem State.setBuffer_ls (s : State) (l : Buffer) : (s.setBuffer l).ls = s.ls := rfl
@[simp] theorem State.setBuffer_fb (s : State) (l : Buffer) : (s.setBuffer l).fb = s.fb := rfl
@[simp] theorem State.setBuffer_commitValid (s : State) (l : Buffer) : (s.setBuffer l).commitValid = s.commitValid := rfl
@[simp] theorem State.setBuffer_commitRow (s : State) (l : Buffer) : (s.setBuffer l).commitRow = s.commitRow := rfl
@[simp] theorem State.setBuffer_fbRdData (s : State) (l : Buffer) : (s.setBuffer l).fbRdData = s.fbRdData := rfl
@[simp] theorem State.setBuffer_srRdBit (s : State) (l : Buffer) : (s.setBuffer l).srRdBit = s.srRdBit := rfl
@[simp] theorem State.setBuffer_inputs (s : State) (l : Buffer) : (s.setBuffer l).inputs = s.inputs := rfl

@[simp] theorem State.setRowAddress_sr (s : State) (r : RowAddress) : (s.setRowAddress r).sr = s.sr := rfl
@[simp] theorem State.setRowAddress_ra (s : State) (r : RowAddress) : (s.setRowAddress r).ra = r := rfl
@[simp] theorem State.setRowAddress_ls (s : State) (r : RowAddress) : (s.setRowAddress r).ls = s.ls := rfl
@[simp] theorem State.setRowAddress_fb (s : State) (r : RowAddress) : (s.setRowAddress r).fb = s.fb := rfl
@[simp] theorem State.setRowAddress_commitValid (s : State) (r : RowAddress) : (s.setRowAddress r).commitValid = s.commitValid := rfl
@[simp] theorem State.setRowAddress_commitRow (s : State) (r : RowAddress) : (s.setRowAddress r).commitRow = s.commitRow := rfl
@[simp] theorem State.setRowAddress_fbRdData (s : State) (r : RowAddress) : (s.setRowAddress r).fbRdData = s.fbRdData := rfl
@[simp] theorem State.setRowAddress_srRdBit (s : State) (r : RowAddress) : (s.setRowAddress r).srRdBit = s.srRdBit := rfl
@[simp] theorem State.setRowAddress_inputs (s : State) (r : RowAddress) : (s.setRowAddress r).inputs = s.inputs := rfl

@[simp] theorem State.setLatch_sr (s : State) (v : LatchState) : (s.setLatch v).sr = s.sr := rfl
@[simp] theorem State.setLatch_ra (s : State) (v : LatchState) : (s.setLatch v).ra = s.ra := rfl
@[simp] theorem State.setLatch_ls (s : State) (v : LatchState) : (s.setLatch v).ls = v := rfl
@[simp] theorem State.setLatch_fb (s : State) (v : LatchState) : (s.setLatch v).fb = s.fb := rfl
@[simp] theorem State.setLatch_commitValid (s : State) (v : LatchState) : (s.setLatch v).commitValid = s.commitValid := rfl
@[simp] theorem State.setLatch_commitRow (s : State) (v : LatchState) : (s.setLatch v).commitRow = s.commitRow := rfl
@[simp] theorem State.setLatch_fbRdData (s : State) (v : LatchState) : (s.setLatch v).fbRdData = s.fbRdData := rfl
@[simp] theorem State.setLatch_srRdBit (s : State) (v : LatchState) : (s.setLatch v).srRdBit = s.srRdBit := rfl
@[simp] theorem State.setLatch_inputs (s : State) (v : LatchState) : (s.setLatch v).inputs = s.inputs := rfl

@[simp] theorem State.setFrame_sr (s : State) (f : FrameBuffer) : (s.setFrame f).sr = s.sr := rfl
@[simp] theorem State.setFrame_ra (s : State) (f : FrameBuffer) : (s.setFrame f).ra = s.ra := rfl
@[simp] theorem State.setFrame_ls (s : State) (f : FrameBuffer) : (s.setFrame f).ls = s.ls := rfl
@[simp] theorem State.setFrame_fb (s : State) (f : FrameBuffer) : (s.setFrame f).fb = f := rfl
@[simp] theorem State.setFrame_commitValid (s : State) (f : FrameBuffer) : (s.setFrame f).commitValid = s.commitValid := rfl
@[simp] theorem State.setFrame_commitRow (s : State) (f : FrameBuffer) : (s.setFrame f).commitRow = s.commitRow := rfl
@[simp] theorem State.setFrame_fbRdData (s : State) (f : FrameBuffer) : (s.setFrame f).fbRdData = s.fbRdData := rfl
@[simp] theorem State.setFrame_srRdBit (s : State) (f : FrameBuffer) : (s.setFrame f).srRdBit = s.srRdBit := rfl
@[simp] theorem State.setFrame_inputs (s : State) (f : FrameBuffer) : (s.setFrame f).inputs = s.inputs := rfl

@[simp] theorem State.setCommitValid_sr (s : State) (v : Bool) : (s.setCommitValid v).sr = s.sr := rfl
@[simp] theorem State.setCommitValid_ra (s : State) (v : Bool) : (s.setCommitValid v).ra = s.ra := rfl
@[simp] theorem State.setCommitValid_ls (s : State) (v : Bool) : (s.setCommitValid v).ls = s.ls := rfl
@[simp] theorem State.setCommitValid_fb (s : State) (v : Bool) : (s.setCommitValid v).fb = s.fb := rfl
@[simp] theorem State.setCommitValid_commitValid (s : State) (v : Bool) : (s.setCommitValid v).commitValid = v := rfl
@[simp] theorem State.setCommitValid_commitRow (s : State) (v : Bool) : (s.setCommitValid v).commitRow = s.commitRow := rfl
@[simp] theorem State.setCommitValid_fbRdData (s : State) (v : Bool) : (s.setCommitValid v).fbRdData = s.fbRdData := rfl
@[simp] theorem State.setCommitValid_srRdBit (s : State) (v : Bool) : (s.setCommitValid v).srRdBit = s.srRdBit := rfl
@[simp] theorem State.setCommitValid_inputs (s : State) (v : Bool) : (s.setCommitValid v).inputs = s.inputs := rfl

@[simp] theorem State.setCommitRow_sr (s : State) (r : RowAddress) : (s.setCommitRow r).sr = s.sr := rfl
@[simp] theorem State.setCommitRow_ra (s : State) (r : RowAddress) : (s.setCommitRow r).ra = s.ra := rfl
@[simp] theorem State.setCommitRow_ls (s : State) (r : RowAddress) : (s.setCommitRow r).ls = s.ls := rfl
@[simp] theorem State.setCommitRow_fb (s : State) (r : RowAddress) : (s.setCommitRow r).fb = s.fb := rfl
@[simp] theorem State.setCommitRow_commitValid (s : State) (r : RowAddress) : (s.setCommitRow r).commitValid = s.commitValid := rfl
@[simp] theorem State.setCommitRow_commitRow (s : State) (r : RowAddress) : (s.setCommitRow r).commitRow = r := rfl
@[simp] theorem State.setCommitRow_fbRdData (s : State) (r : RowAddress) : (s.setCommitRow r).fbRdData = s.fbRdData := rfl
@[simp] theorem State.setCommitRow_srRdBit (s : State) (r : RowAddress) : (s.setCommitRow r).srRdBit = s.srRdBit := rfl
@[simp] theorem State.setCommitRow_inputs (s : State) (r : RowAddress) : (s.setCommitRow r).inputs = s.inputs := rfl

@[simp] theorem State.setFbRdData_sr (s : State) (w : RowWord) : (s.setFbRdData w).sr = s.sr := rfl
@[simp] theorem State.setFbRdData_ra (s : State) (w : RowWord) : (s.setFbRdData w).ra = s.ra := rfl
@[simp] theorem State.setFbRdData_ls (s : State) (w : RowWord) : (s.setFbRdData w).ls = s.ls := rfl
@[simp] theorem State.setFbRdData_fb (s : State) (w : RowWord) : (s.setFbRdData w).fb = s.fb := rfl
@[simp] theorem State.setFbRdData_commitValid (s : State) (w : RowWord) : (s.setFbRdData w).commitValid = s.commitValid := rfl
@[simp] theorem State.setFbRdData_commitRow (s : State) (w : RowWord) : (s.setFbRdData w).commitRow = s.commitRow := rfl
@[simp] theorem State.setFbRdData_fbRdData (s : State) (w : RowWord) : (s.setFbRdData w).fbRdData = w := rfl
@[simp] theorem State.setFbRdData_srRdBit (s : State) (w : RowWord) : (s.setFbRdData w).srRdBit = s.srRdBit := rfl
@[simp] theorem State.setFbRdData_inputs (s : State) (w : RowWord) : (s.setFbRdData w).inputs = s.inputs := rfl

@[simp] theorem State.setSrRdBit_sr (s : State) (b : Bool) : (s.setSrRdBit b).sr = s.sr := rfl
@[simp] theorem State.setSrRdBit_ra (s : State) (b : Bool) : (s.setSrRdBit b).ra = s.ra := rfl
@[simp] theorem State.setSrRdBit_ls (s : State) (b : Bool) : (s.setSrRdBit b).ls = s.ls := rfl
@[simp] theorem State.setSrRdBit_fb (s : State) (b : Bool) : (s.setSrRdBit b).fb = s.fb := rfl
@[simp] theorem State.setSrRdBit_commitValid (s : State) (b : Bool) : (s.setSrRdBit b).commitValid = s.commitValid := rfl
@[simp] theorem State.setSrRdBit_commitRow (s : State) (b : Bool) : (s.setSrRdBit b).commitRow = s.commitRow := rfl
@[simp] theorem State.setSrRdBit_fbRdData (s : State) (b : Bool) : (s.setSrRdBit b).fbRdData = s.fbRdData := rfl
@[simp] theorem State.setSrRdBit_srRdBit (s : State) (b : Bool) : (s.setSrRdBit b).srRdBit = b := rfl
@[simp] theorem State.setSrRdBit_inputs (s : State) (b : Bool) : (s.setSrRdBit b).inputs = s.inputs := rfl

@[simp] theorem State.setInputs_sr (s : State) (is : List PortCycle) : (s.setInputs is).sr = s.sr := rfl
@[simp] theorem State.setInputs_ra (s : State) (is : List PortCycle) : (s.setInputs is).ra = s.ra := rfl
@[simp] theorem State.setInputs_ls (s : State) (is : List PortCycle) : (s.setInputs is).ls = s.ls := rfl
@[simp] theorem State.setInputs_fb (s : State) (is : List PortCycle) : (s.setInputs is).fb = s.fb := rfl
@[simp] theorem State.setInputs_commitValid (s : State) (is : List PortCycle) : (s.setInputs is).commitValid = s.commitValid := rfl
@[simp] theorem State.setInputs_commitRow (s : State) (is : List PortCycle) : (s.setInputs is).commitRow = s.commitRow := rfl
@[simp] theorem State.setInputs_fbRdData (s : State) (is : List PortCycle) : (s.setInputs is).fbRdData = s.fbRdData := rfl
@[simp] theorem State.setInputs_srRdBit (s : State) (is : List PortCycle) : (s.setInputs is).srRdBit = s.srRdBit := rfl
@[simp] theorem State.setInputs_inputs (s : State) (is : List PortCycle) : (s.setInputs is).inputs = is := rfl

@[simp] theorem State.noteCommit_sr (s : State) : (s.noteCommit).sr = s.sr := rfl
@[simp] theorem State.noteCommit_ra (s : State) : (s.noteCommit).ra = s.ra := rfl
@[simp] theorem State.noteCommit_ls (s : State) : (s.noteCommit).ls = s.ls := rfl
@[simp] theorem State.noteCommit_fb (s : State) : (s.noteCommit).fb = s.fb := rfl
@[simp] theorem State.noteCommit_commitValid (s : State) : (s.noteCommit).commitValid = true := rfl
@[simp] theorem State.noteCommit_commitRow (s : State) : (s.noteCommit).commitRow = s.ra := rfl
@[simp] theorem State.noteCommit_fbRdData (s : State) : (s.noteCommit).fbRdData = s.fbRdData := rfl
@[simp] theorem State.noteCommit_srRdBit (s : State) : (s.noteCommit).srRdBit = s.srRdBit := rfl
@[simp] theorem State.noteCommit_inputs (s : State) : (s.noteCommit).inputs = s.inputs := rfl

@[simp] theorem State.noteNoCommit_sr (s : State) : (s.noteNoCommit).sr = s.sr := rfl
@[simp] theorem State.noteNoCommit_ra (s : State) : (s.noteNoCommit).ra = s.ra := rfl
@[simp] theorem State.noteNoCommit_ls (s : State) : (s.noteNoCommit).ls = s.ls := rfl
@[simp] theorem State.noteNoCommit_fb (s : State) : (s.noteNoCommit).fb = s.fb := rfl
@[simp] theorem State.noteNoCommit_commitValid (s : State) : (s.noteNoCommit).commitValid = false := rfl
@[simp] theorem State.noteNoCommit_commitRow (s : State) : (s.noteNoCommit).commitRow = s.commitRow := rfl
@[simp] theorem State.noteNoCommit_fbRdData (s : State) : (s.noteNoCommit).fbRdData = s.fbRdData := rfl
@[simp] theorem State.noteNoCommit_srRdBit (s : State) : (s.noteNoCommit).srRdBit = s.srRdBit := rfl
@[simp] theorem State.noteNoCommit_inputs (s : State) : (s.noteNoCommit).inputs = s.inputs := rfl

@[simp] theorem State.push_sr (s : State) (b : Bool) : (s.push b).sr = srPush s.sr b := rfl
@[simp] theorem State.push_ra (s : State) (b : Bool) : (s.push b).ra = s.ra := rfl
@[simp] theorem State.push_ls (s : State) (b : Bool) : (s.push b).ls = s.ls := rfl
@[simp] theorem State.push_fb (s : State) (b : Bool) : (s.push b).fb = s.fb := rfl
@[simp] theorem State.push_commitValid (s : State) (b : Bool) : (s.push b).commitValid = s.commitValid := rfl
@[simp] theorem State.push_commitRow (s : State) (b : Bool) : (s.push b).commitRow = s.commitRow := rfl
@[simp] theorem State.push_fbRdData (s : State) (b : Bool) : (s.push b).fbRdData = s.fbRdData := rfl
@[simp] theorem State.push_srRdBit (s : State) (b : Bool) : (s.push b).srRdBit = s.srRdBit := rfl
@[simp] theorem State.push_inputs (s : State) (b : Bool) : (s.push b).inputs = s.inputs := rfl

@[simp] theorem State.selectRow_sr (s : State) (row : RowOperand) : (s.selectRow row).sr = s.sr := rfl
@[simp] theorem State.selectRow_ra (s : State) (row : RowOperand) : (s.selectRow row).ra = rowAddressOf row := rfl
@[simp] theorem State.selectRow_ls (s : State) (row : RowOperand) : (s.selectRow row).ls = s.ls := rfl
@[simp] theorem State.selectRow_fb (s : State) (row : RowOperand) : (s.selectRow row).fb = s.fb := rfl
@[simp] theorem State.selectRow_commitValid (s : State) (row : RowOperand) : (s.selectRow row).commitValid = s.commitValid := rfl
@[simp] theorem State.selectRow_commitRow (s : State) (row : RowOperand) : (s.selectRow row).commitRow = s.commitRow := rfl
@[simp] theorem State.selectRow_fbRdData (s : State) (row : RowOperand) : (s.selectRow row).fbRdData = s.fbRdData := rfl
@[simp] theorem State.selectRow_srRdBit (s : State) (row : RowOperand) : (s.selectRow row).srRdBit = s.srRdBit := rfl
@[simp] theorem State.selectRow_inputs (s : State) (row : RowOperand) : (s.selectRow row).inputs = s.inputs := rfl

@[simp] theorem State.latch_sr (s : State) : (s.latch).sr = s.sr := rfl
@[simp] theorem State.latch_ra (s : State) : (s.latch).ra = s.ra := rfl
@[simp] theorem State.latch_ls (s : State) : (s.latch).ls = .visible := rfl
@[simp] theorem State.latch_fb (s : State) : (s.latch).fb = commit s.fb s.sr s.ra := rfl
@[simp] theorem State.latch_commitValid (s : State) : (s.latch).commitValid = true := rfl
@[simp] theorem State.latch_commitRow (s : State) : (s.latch).commitRow = s.ra := rfl
@[simp] theorem State.latch_fbRdData (s : State) : (s.latch).fbRdData = s.fbRdData := rfl
@[simp] theorem State.latch_srRdBit (s : State) : (s.latch).srRdBit = s.srRdBit := rfl
@[simp] theorem State.latch_inputs (s : State) : (s.latch).inputs = s.inputs := rfl

@[simp] theorem State.readRow_sr (s : State) (y : RowNumber) : (s.readRow y).sr = s.sr := rfl
@[simp] theorem State.readRow_ra (s : State) (y : RowNumber) : (s.readRow y).ra = s.ra := rfl
@[simp] theorem State.readRow_ls (s : State) (y : RowNumber) : (s.readRow y).ls = s.ls := rfl
@[simp] theorem State.readRow_fb (s : State) (y : RowNumber) : (s.readRow y).fb = s.fb := rfl
@[simp] theorem State.readRow_commitValid (s : State) (y : RowNumber) : (s.readRow y).commitValid = s.commitValid := rfl
@[simp] theorem State.readRow_commitRow (s : State) (y : RowNumber) : (s.readRow y).commitRow = s.commitRow := rfl
@[simp] theorem State.readRow_fbRdData (s : State) (y : RowNumber) : (s.readRow y).fbRdData = pack (fbRow s.fb y) := rfl
@[simp] theorem State.readRow_srRdBit (s : State) (y : RowNumber) : (s.readRow y).srRdBit = s.srRdBit := rfl
@[simp] theorem State.readRow_inputs (s : State) (y : RowNumber) : (s.readRow y).inputs = s.inputs := rfl

@[simp] theorem State.readBit_sr (s : State) (idx : SrIndex) : (s.readBit idx).sr = s.sr := rfl
@[simp] theorem State.readBit_ra (s : State) (idx : SrIndex) : (s.readBit idx).ra = s.ra := rfl
@[simp] theorem State.readBit_ls (s : State) (idx : SrIndex) : (s.readBit idx).ls = s.ls := rfl
@[simp] theorem State.readBit_fb (s : State) (idx : SrIndex) : (s.readBit idx).fb = s.fb := rfl
@[simp] theorem State.readBit_commitValid (s : State) (idx : SrIndex) : (s.readBit idx).commitValid = s.commitValid := rfl
@[simp] theorem State.readBit_commitRow (s : State) (idx : SrIndex) : (s.readBit idx).commitRow = s.commitRow := rfl
@[simp] theorem State.readBit_fbRdData (s : State) (idx : SrIndex) : (s.readBit idx).fbRdData = s.fbRdData := rfl
@[simp] theorem State.readBit_srRdBit (s : State) (idx : SrIndex) : (s.readBit idx).srRdBit = srReadPort s.sr idx := rfl
@[simp] theorem State.readBit_inputs (s : State) (idx : SrIndex) : (s.readBit idx).inputs = s.inputs := rfl

@[simp] theorem State.resetEdge_sr (s : State) : (s.resetEdge).sr = srCleared := rfl
@[simp] theorem State.resetEdge_ra (s : State) : (s.resetEdge).ra = 0 := rfl
@[simp] theorem State.resetEdge_ls (s : State) : (s.resetEdge).ls = .visible := rfl
@[simp] theorem State.resetEdge_fb (s : State) : (s.resetEdge).fb = Config.resetFrame Config.fbReset := rfl
@[simp] theorem State.resetEdge_commitValid (s : State) : (s.resetEdge).commitValid = false := rfl
@[simp] theorem State.resetEdge_commitRow (s : State) : (s.resetEdge).commitRow = 0 := rfl
@[simp] theorem State.resetEdge_fbRdData (s : State) : (s.resetEdge).fbRdData = 0 := rfl
@[simp] theorem State.resetEdge_srRdBit (s : State) : (s.resetEdge).srRdBit = s.srRdBit := rfl
@[simp] theorem State.resetEdge_inputs (s : State) : (s.resetEdge).inputs = s.inputs := rfl

end Sys2Proof.Machine
end

