-- ==== Sys2Proof/Laws/Ops.lean ====
section
/-! SUPPORT. For each shared operation over the storages and operands, what it does. -/

namespace Sys2Proof.Machine

/-! Operands. -/

theorem topY_toNat (r : RowAddress) : (topY r).toNat = r.toNat := by
  have := r.isLt
  simp [topY, BitVec.toNat_setWidth]; omega

theorem bottomY_toNat (r : RowAddress) : (bottomY r).toNat = r.toNat + 16 := by
  have := r.isLt
  simp [bottomY, BitVec.toNat_add, BitVec.toNat_setWidth]; omega

theorem topY_ne_bottomY (r q : RowAddress) : topY r ≠ bottomY q := by
  intro h
  have h := congrArg BitVec.toNat h
  rw [topY_toNat, bottomY_toNat] at h
  have := r.isLt
  omega

theorem topY_inj {r q : RowAddress} : topY r = topY q ↔ r = q := by
  refine ⟨fun h => ?_, fun h => h ▸ rfl⟩
  have h := congrArg BitVec.toNat h
  rw [topY_toNat, topY_toNat] at h
  exact BitVec.eq_of_toNat_eq h

theorem bottomY_inj {r q : RowAddress} : bottomY r = bottomY q ↔ r = q := by
  refine ⟨fun h => ?_, fun h => h ▸ rfl⟩
  have h := congrArg BitVec.toNat h
  rw [bottomY_toNat, bottomY_toNat] at h
  exact BitVec.eq_of_toNat_eq (by omega)

/-- A scan step's SELECT_ROW `i + 1` selects the row-pair `i`. -/
theorem rowAddressOf_succ (i : RowAddress) : rowAddressOf (i.setWidth 5 + 1) = i := by
  revert i; decide

/-! The shift register. -/

theorem srGet_ge (l : Buffer) {i : Nat} (h : 192 ≤ i) : srGet l i = false := BitVec.getLsbD_of_ge l i h

@[simp] theorem srGet_srCleared (i : Nat) : srGet srCleared i = false := by simp [srGet, srCleared]

/-- Every bit of a pushed buffer. -/
theorem srGet_srPush (l : Buffer) (b : Bool) (i : Nat) :
    srGet (srPush l b) i = if i = 191 then b else srGet l (i + 1) := by
  unfold srGet srPush
  rw [BitVec.getLsbD_cons]
  by_cases h : i = 191
  · simp [h]
  · by_cases h' : i < 191
    · simp [h, h', Nat.add_comm]
    · rw [BitVec.getLsbD_of_ge l (i + 1) (by omega)]
      simp [h, h']

/-- Two buffers with the same 192 bits are equal. -/
theorem buffer_ext {l m : Buffer} (h : ∀ i < 192, srGet l i = srGet m i) : l = m :=
  BitVec.eq_of_getLsbD_eq fun i hi => h i hi

theorem srReadPort_of_le (l : Buffer) {idx : SrIndex} (h : idx.toNat ≤ 191) :
    srReadPort l idx = srGet l idx.toNat := if_pos h

theorem srReadPort_of_gt (l : Buffer) {idx : SrIndex} (h : 191 < idx.toNat) : srReadPort l idx = false :=
  if_neg (by omega)

/-! The frame buffer. -/

/-- A read after a write of a row: the row written there, every other row as it was. -/
theorem fbRow_fbSetRow (f : FrameBuffer) (y z : RowNumber) (row : Row) :
    fbRow (fbSetRow f y row) z = if z = y then row else fbRow f z := by
  unfold fbRow fbSetRow
  rw [Vector.getElem_set]
  by_cases h : z = y
  · simp [h]
  · have h' : ¬y.toNat = z.toNat := fun e => h (BitVec.eq_of_toNat_eq e.symm)
    simp [h, h']

/-- Every row of a committed frame buffer. -/
theorem fbRow_commit (f : FrameBuffer) (l : Buffer) (r : RowAddress) (y : RowNumber) :
    fbRow (commit f l r) y =
      if y = bottomY r then decodeBottom l else if y = topY r then decodeTop l else fbRow f y := by
  rw [commit, fbRow_fbSetRow, fbRow_fbSetRow]

@[simp] theorem fbRow_commit_top (f : FrameBuffer) (l : Buffer) (r : RowAddress) :
    fbRow (commit f l r) (topY r) = decodeTop l := by
  rw [fbRow_commit, if_neg (topY_ne_bottomY r r), if_pos rfl]

@[simp] theorem fbRow_commit_bottom (f : FrameBuffer) (l : Buffer) (r : RowAddress) :
    fbRow (commit f l r) (bottomY r) = decodeBottom l := by
  rw [fbRow_commit, if_pos rfl]

theorem fbRow_commit_other (f : FrameBuffer) (l : Buffer) (r : RowAddress) {y : RowNumber}
    (ht : y ≠ topY r) (hb : y ≠ bottomY r) : fbRow (commit f l r) y = fbRow f y := by
  rw [fbRow_commit, if_neg hb, if_neg ht]

/-- A pixel of the decoded top row. -/
theorem decodeTop_getElem (l : Buffer) (x : Nat) (h : x < 32) :
    (decodeTop l)[x] = { r := srGet l x, g := srGet l (32 + x), b := srGet l (64 + x) } := by
  simp [decodeTop]

/-- A pixel of the decoded bottom row. -/
theorem decodeBottom_getElem (l : Buffer) (x : Nat) (h : x < 32) :
    (decodeBottom l)[x] = { r := srGet l (96 + x), g := srGet l (128 + x), b := srGet l (160 + x) } := by
  simp [decodeBottom]

/-- Two frame buffers with the same 32 rows are equal. -/
theorem frame_ext {f g : FrameBuffer} (h : ∀ y, fbRow f y = fbRow g y) : f = g := by
  refine Vector.ext fun i hi => ?_
  have := h (BitVec.ofNat 5 i)
  simpa [fbRow, Nat.mod_eq_of_lt hi] using this

/-- Every row of the frame buffer after reset is black. -/
theorem fbRow_resetFrame (y : RowNumber) :
    fbRow (Config.resetFrame Config.fbReset) y = Vector.replicate 32 Pixel.black := by
  simp [fbRow, Config.resetFrame, Config.fbReset]

theorem pixelCode_lt (p : Pixel) : pixelCode p < 8 := by
  obtain ⟨r, g, b⟩ := p
  revert r g b; decide

theorem packPixels_lt (ps : List Pixel) : packPixels ps < 8 ^ ps.length := by
  induction ps with
  | nil => simp [packPixels]
  | cons p ps ih =>
    have := pixelCode_lt p
    simp only [packPixels, List.length_cons, pow_succ]
    omega

end Sys2Proof.Machine
end

