-- ==== Sys2Proof/Laws/Exec.lean ====
section
/-! SUPPORT. What one instruction, one clock cycle and a stream of commands can do, said once. -/

namespace Sys2Proof.Machine

/-- The state an instruction leaves. -/
def effect (i : Instr) (s : State) : State :=
  match i with
  | .nop => s.noteNoCommit
  | .selectRow row => (s.selectRow row).noteNoCommit
  | .prepareLatch => (s.setLatch .hidden).noteNoCommit
  | .pushBit b => (s.push b).noteNoCommit
  | .clearRow row => ((s.selectRow row).setBuffer srCleared).noteNoCommit
  | .latchRegister => s.latch
  | .rsvd6 => s.noteNoCommit
  | .rsvd7 => s.noteNoCommit
  | .srGet idx => s.readBit idx
  | .fbRead y => s.readRow y

/-- An instruction answers the state `effect` gives, and nothing else. -/
theorem exec_eq_effect (i : Instr) (s : State) : exec i s = .next (effect i s) := by
  cases i <;> rfl

@[simp] theorem andThen_next (s : State) (k : State → Host.Outcome State Fault Refusal) :
    andThen (.next s) k = k s := rfl

/-- The state a cycle leaves at a clock edge with `rst = 0`, from the state after the SR read. -/
def clockedState (p : PortCycle) (s : State) : State :=
  let s₁ := if p.fbRdEn then s.readRow p.fbRdY else s
  if p.cmdValid then effect (decodeCommand p.cmd) s₁ else s₁.noteNoCommit

theorem decodeFbRead_fbReadWord (en : Bool) (y : RowNumber) :
    decodeFbRead (fbReadWord en y) = if en then .ok (.fbRead y) else .error .noReadRequest := by
  revert en y; decide

theorem readPhase_eq (p : PortCycle) (s : State) :
    readPhase p s = .next (if p.fbRdEn then s.readRow p.fbRdY else s) := by
  simp only [readPhase, decode, decodeFbRead_fbReadWord]
  cases p.fbRdEn <;> rfl

theorem commandPhase_eq (p : PortCycle) (s : State) :
    commandPhase p s =
      .next (if p.cmdValid then effect (decodeCommand p.cmd) s else s.noteNoCommit) := by
  unfold commandPhase
  cases p.cmdValid
  · rfl
  · simp [exec_eq_effect]

/-- Everything a clock cycle can do. -/
theorem cycle_eq (p : PortCycle) (s : State) :
    cycle p s = .next (if p.rst then (s.readBit p.srRdIdx).resetEdge
      else clockedState p (s.readBit p.srRdIdx)) := by
  simp only [cycle, decodeSrRead, exec_eq_effect, effect, andThen_next, Config.rdwMode, clockedPhase,
    readPhase_eq, commandPhase_eq]
  cases p.rst <;> rfl

/-- The state one step leaves. -/
def stepState (s : State) : State :=
  let s₁ := s.takeCycle.readBit s.currentCycle.srRdIdx
  if s.currentCycle.rst then s₁.resetEdge else clockedState s.currentCycle s₁

/-- Everything a step can do. -/
theorem step_eq (s : State) : step s = .next (stepState s) := cycle_eq _ _

@[simp] theorem runCommands_nil (s : State) : runCommands [] s = .next s := rfl

/-- A stream runs its first instruction and then the rest. -/
@[simp] theorem runCommands_cons (i : Instr) (is : List Instr) (s : State) :
    runCommands (i :: is) s = runCommands is (effect i s) := by
  rw [runCommands, exec_eq_effect, andThen_next]

/-- Streams run one after another. -/
theorem runCommands_append (is js : List Instr) (s : State) :
    runCommands (is ++ js) s = andThen (runCommands is s) (runCommands js) := by
  induction is generalizing s with
  | nil => rfl
  | cons i is ih => simp [ih]

end Sys2Proof.Machine
end

