-- ==== Sys2Proof/Laws/PerInstr.lean ====
section
/-! SUPPORT. Statements about every instruction as syntax, one lemma per constructor. -/

namespace Sys2Proof.Laws.EncodingFitsTable

/-- The word an instruction is encoded as lies in its row of spec/opcode_table.json:
`(word & mask) == match` (spec/30_encoding.md R62). -/
def Statement (i : Instr) : Prop := (encode i).toNat &&& tableMask i = tableMatch i

theorem nop : Statement .nop := by unfold Statement; decide
theorem selectRow (row : RowOperand) : Statement (.selectRow row) := by
  unfold Statement; revert row; decide
theorem prepareLatch : Statement .prepareLatch := by unfold Statement; decide
theorem pushBit (b : Bool) : Statement (.pushBit b) := by
  unfold Statement; revert b; decide
theorem clearRow (row : RowOperand) : Statement (.clearRow row) := by
  unfold Statement; revert row; decide
theorem latchRegister : Statement .latchRegister := by unfold Statement; decide
theorem rsvd6 : Statement .rsvd6 := by unfold Statement; decide
theorem rsvd7 : Statement .rsvd7 := by unfold Statement; decide
theorem srGet (idx : SrIndex) : Statement (.srGet idx) := by
  simp [Statement, tableMask, tableMatch]
theorem fbRead (y : RowNumber) : Statement (.fbRead y) := by
  unfold Statement; revert y; decide

end Sys2Proof.Laws.EncodingFitsTable
end

