-- ==== Sys2Proof/Tests/Slice0.lean ====
section
/-! SUPPORT. Tests on fixed values, each expected value from spec/95_test_vectors.md or worked out by hand from
the rule named, and a witness for each statement that has hypotheses. -/

namespace Sys2Proof.Tests

open Sys2Proof Sys2Proof.Machine

/-- The state an outcome leaves; the reset state where there is none. -/
def leaves (o : Host.Outcome State Fault Refusal) : State :=
  match o with
  | .next s => s
  | .fault _ => State.reset
  | .refused _ => State.reset

/-- The reset state with a buffer and a RowAddress. -/
def holding (l : Buffer) (r : RowAddress) : State := (State.reset.setBuffer l).setRowAddress r

/-- The reset state with cycles presented. -/
def presented (ps : List PortCycle) : State := State.reset.setInputs ps

/-- A read request for a row, added to a cycle. -/
def reading (y : RowNumber) (p : PortCycle) : PortCycle := { p with fbRdEn := true, fbRdY := y }

/-! ### Words, written out from R61 and R62: OP, B, ROW -/

theorem test_decode_nop : decode (.command 0b000000000) = .ok .nop := by rfl
theorem test_decode_selectRow : decode (.command 0b001000110) = .ok (.selectRow 6) := by rfl
theorem test_decode_selectRow_ignores_b : decode (.command 0b001100000) = .ok (.selectRow 0) := by rfl
theorem test_decode_prepareLatch : decode (.command 0b010000000) = .ok .prepareLatch := by rfl
theorem test_decode_pushBit_0 : decode (.command 0b011000000) = .ok (.pushBit false) := by rfl
theorem test_decode_pushBit_1 : decode (.command 0b011111111) = .ok (.pushBit true) := by rfl
theorem test_decode_clearRow : decode (.command 0b100000011) = .ok (.clearRow 3) := by rfl
theorem test_decode_latchRegister : decode (.command 0b101011111) = .ok .latchRegister := by rfl
theorem test_decode_rsvd6 : decode (.command 0b110000000) = .ok .rsvd6 := by rfl
theorem test_decode_rsvd7 : decode (.command 0b111111111) = .ok .rsvd7 := by rfl
theorem test_decode_srGet : decode (.srRead 0b10111111) = .ok (.srGet 191) := by rfl
theorem test_decode_fbRead : decode (.fbRead 0b100111) = .ok (.fbRead 7) := by rfl
theorem test_decode_no_read : decode (.fbRead 0b000111) = .error .noReadRequest := by rfl
theorem test_encode_clearRow : encode (.clearRow 3) = .command 0x103 := by decide
theorem test_encode_pushBit : encode (.pushBit true) = .command 0x0E0 := by decide
theorem test_table_word_selectRow : decodeTableWord 16 0x046 = some (.selectRow 6) := by decide
theorem test_table_word_fbRead : decodeTableWord 8 0x20 = some (.fbRead 0) := by decide
theorem test_table_word_srGet : decodeTableWord 8 0x00 = some (.srGet 0) := by decide
theorem test_table_word_too_wide : decodeTableWord 16 0x200 = none := by decide

/-! ### WellFormed smoke: each check refuses its ill-formed term (R72) -/

theorem test_wellFormed_refuses_rsvd6 : Instr.wellFormed .rsvd6 = false := by decide
theorem test_wellFormed_refuses_rsvd7 : Instr.wellFormed .rsvd7 = false := by decide
theorem test_stream_refuses_reserved : commandStreamWellFormed [.nop, .rsvd6] = false := by decide
theorem test_stream_refuses_srGet : commandStreamWellFormed [.srGet 0] = false := by decide
theorem test_stream_refuses_fbRead : commandStreamWellFormed [.nop, .fbRead 0] = false := by decide
theorem test_stream_accepts : commandStreamWellFormed [.clearRow 0, .latchRegister] = true := by decide
theorem test_assemble_selectRow : assemble "SelectRow" (some 31) = some (.selectRow 31) := by decide
theorem test_assemble_row_out_of_range : assemble "SELECT_ROW" (some 32) = none := by decide
theorem test_assemble_no_reserved : assemble "RSVD6" none = none := by decide

/-! ### One instruction each -/

/-- spec/95_test_vectors.md 2.9. -/
theorem test_nop_drops_commitValid :
    (leaves (exec .nop (State.reset.setCommitValid true))).commitValid = false := by decide

/-- spec/95_test_vectors.md 2.3: row 0 selects 15. -/
theorem test_selectRow_0 : (leaves (exec (.selectRow 0) State.reset)).ra = 15 := by decide

/-- spec/95_test_vectors.md 2.3: row 22 selects 5. -/
theorem test_selectRow_22 : (leaves (exec (.selectRow 22) State.reset)).ra = 5 := by decide

/-- T-LS-1. -/
theorem test_prepareLatch : (leaves (exec .prepareLatch State.reset)).displayEn = false := by decide

/-- T-SR-2. -/
theorem test_pushBit_1 : (leaves (exec (.pushBit true) State.reset)).sr = BitVec.twoPow 192 191 := by decide

/-- T-SR-4: the oldest bit is discarded. -/
theorem test_pushBit_discards : (leaves (exec (.pushBit false) (holding 1 0))).sr = 0 := by decide

/-- T-CR-1. -/
theorem test_clearRow :
    (leaves (exec (.clearRow 3) (holding (BitVec.allOnes 192) 7))).sr = 0 ∧
      (leaves (exec (.clearRow 3) (holding (BitVec.allOnes 192) 7))).ra = 2 := by decide

/-- T-CR-3. -/
theorem test_clearRow_17 : (leaves (exec (.clearRow 17) State.reset)).ra = 0 := by decide

/-- spec/95_test_vectors.md 2.7, k = 95: `FB[3][31].B`, and row 19 stays black. -/
theorem test_latch_top :
    pack (fbRow (leaves (exec .latchRegister (holding (BitVec.twoPow 192 95) 3))).fb 3) =
        0x800000000000000000000000 ∧
      pack (fbRow (leaves (exec .latchRegister (holding (BitVec.twoPow 192 95) 3))).fb 19) = 0 := by decide

/-- spec/95_test_vectors.md 2.7, k = 128: `FB[19][0].G`. -/
theorem test_latch_bottom :
    pack (fbRow (leaves (exec .latchRegister (holding (BitVec.twoPow 192 128) 3))).fb 19) = 2 := by decide

/-- spec/95_test_vectors.md 2.9. -/
theorem test_rsvd6_drops_commitValid :
    (leaves (exec .rsvd6 (State.reset.setCommitValid true))).commitValid = false := by decide

/-- spec/95_test_vectors.md 2.9. -/
theorem test_rsvd7_keeps_buffer : (leaves (exec .rsvd7 (holding 5 0))).sr = 5 := by decide

/-- R82: the newest bit at index 191. -/
theorem test_srGet_191 : (leaves (exec (.srGet 191) (holding (BitVec.twoPow 192 191) 0))).srRdBit = true := by
  decide

/-- T-SR-8: index 192 reads 0. -/
theorem test_srGet_192 : (leaves (exec (.srGet 192) (holding (BitVec.allOnes 192) 0))).srRdBit = false := by
  decide

/-- P1's row 5: every R bit set. -/
theorem test_fbRead_reds :
    (leaves (exec (.fbRead 5) (State.reset.setFrame (commit State.reset.fb 0xFFFFFFFF 5)))).fbRdData =
      0x249249249249249249249249 := by decide

/-- T-FB-3. -/
theorem test_fbRead_last_blue :
    (leaves (exec (.fbRead 7) (State.reset.setFrame (commit State.reset.fb (BitVec.twoPow 192 95) 7)))).fbRdData =
      0x800000000000000000000000 := by decide

/-! ### One cycle each -/

/-- T-RS-2: the push presented with reset is not accepted. -/
theorem test_reset_beats_push :
    (leaves (step (presented [{ commandCycle 0x0E0 with rst := true }]))).sr = 0 := by decide

/-- T-FB-5: a read in the cycle of the commit returns the old row. -/
theorem test_read_in_commit_cycle :
    (leaves (step ((holding (BitVec.allOnes 192) 3).setInputs [reading 3 (commandCycle 0x140)]))).fbRdData = 0 := by
  decide

/-- T-SR-9: in the cycle of the push the port shows the old bit. -/
theorem test_srRead_in_push_cycle :
    (leaves (step ((holding (BitVec.allOnes 192) 0).setInputs
      [{ commandCycle 0x0C0 with srRdIdx := 191 }]))).srRdBit = true := by decide

/-- R65: with no inputs left the ports are idle. -/
theorem test_idle_step : (leaves (step (State.reset.setCommitValid true))).commitValid = false := by decide

/-- A presented word runs in the very next step. -/
theorem test_withFetchWord : (leaves (step (State.reset.withFetchWord 16 0x046))).ra = 5 := by decide

/-- R73: column 0 of a plane is pushed first. -/
theorem test_planeBits_order : (planeBits 1).head? = some true := by decide

/-- spec/95_test_vectors.md 2.2, the ring form check. -/
theorem test_ring :
    (ringPush { cells := (Vector.replicate 192 false).set 190 true, oldest := 190 } false).oldest = 191 := by decide

/-! ### Witnesses: a concrete state and operands that meet each statement's hypotheses -/

theorem witness_IgnoredBitsDoNotMatter :
    (0x066#9) &&& usedBits (decodeCommand 0x046) = 0x046 &&& usedBits (decodeCommand 0x046) := by decide

theorem witness_SpellingAssembles : spelling (.clearRow 31) = some ("CLEAR_ROW", some 31) := by decide

/-- Every row of the opcode map, at words with all ignored bits set. -/
theorem witness_command_words :
    (0x03F#9) &&& 0x1C0 = 0x000 ∧ (0x07F#9) &&& 0x1C0 = 0x040 ∧ (0x0BF#9) &&& 0x1C0 = 0x080 ∧
    (0x0FF#9) &&& 0x1C0 = 0x0C0 ∧ (0x13F#9) &&& 0x1C0 = 0x100 ∧ (0x17F#9) &&& 0x1C0 = 0x140 ∧
    (0x1BF#9) &&& 0x1C0 = 0x180 ∧ (0x1FF#9) &&& 0x1C0 = 0x1C0 := by decide

/-- LatchRegisterCommitsTheBuffer: rows on both sides of the two written ones. -/
theorem witness_other_rows :
    (∀ y ∈ ([6, 4, 20, 22, 0, 31] : List RowNumber), y ≠ topY (holding 0 5).ra ∧ y ≠ bottomY (holding 0 5).ra) := by
  decide

theorem witness_SrGetReadsTheBufferBit :
    (191#8).toNat ≤ 191 ∧ (0#8).toNat ≤ 191 ∧ 192 ≤ (192#8).toNat ∧ 192 ≤ (255#8).toNat := by decide

theorem witness_PackingPlacesEachChannel :
    pack (Vector.replicate 32 Pixel.black) = pack (Vector.replicate 32 { r := false, g := false, b := false }) := by
  decide

/-- Two different buffers that agree on column 31. -/
theorem witness_DecoderIsPerColumn :
    (1 : Buffer) ≠ 2 ∧ ∀ p < 6, srGet 1 (32 * p + 31) = srGet 2 (32 * p + 31) := by decide

/-- The four clauses of StepRunsTheDecodedInstruction. -/
theorem witness_StepRunsTheDecodedInstruction :
    (presented [commandCycle 0x0E0]).inputs = commandCycle 0x0E0 :: [] ∧
    (commandCycle 0x0E0).rst = false ∧ (commandCycle 0x0E0).cmdValid = true ∧
    (commandCycle 0x0E0).fbRdEn = false ∧ decodeCommand (commandCycle 0x0E0).cmd = .pushBit true ∧
    (reading 31 (commandCycle 0x140)).fbRdEn = true ∧ (reading 31 (commandCycle 0x140)).cmdValid = true ∧
    (reading 31 (commandCycle 0x140)).rst = false ∧
    decodeCommand (reading 31 (commandCycle 0x140)).cmd = .latchRegister ∧
    (reading 31 idleCycle).cmdValid = false ∧ (reading 31 idleCycle).rst = false ∧
    fbReadWord (reading 31 idleCycle).fbRdEn (reading 31 idleCycle).fbRdY = 0x3F ∧
    idleCycle.cmdValid = false ∧ idleCycle.fbRdEn = false ∧ idleCycle.rst = false ∧
    decodeSrRead idleCycle.srRdIdx = .srGet 0 := by decide

theorem witness_StepRuns_fbRead_word :
    decode (.fbRead (fbReadWord (reading 31 idleCycle).fbRdEn (reading 31 idleCycle).fbRdY)) = .ok (.fbRead 31) := by
  rfl

theorem witness_PresentedWordRunsNext :
    ((31#8).toNat < 32 ∨ 64 ≤ (31#8).toNat) ∧ ((64#8).toNat < 32 ∨ 64 ≤ (64#8).toNat) := by decide

/-- NoCommandChangesNoBlockState, FrameBufferReadPort, CommitNotificationFollowsEachLatch,
LatchStateTransitions and OnlyTheNamedCommandsWriteEachElement: a cycle for each clause. -/
theorem witness_cycles :
    (idleCycle.cmdValid = false ∧ idleCycle.rst = false ∧ idleCycle.fbRdEn = false) ∧
    resetCycle.rst = true ∧
    ((reading 31 idleCycle).rst = false ∧ (reading 31 idleCycle).fbRdEn = true) ∧
    acceptedCommand (commandCycle 0x15F) = some .latchRegister ∧
    acceptedCommand (commandCycle 0x0BF) = some .prepareLatch ∧
    (∀ w ∈ ([0x000, 0x05F] : List CommandWord), acceptedCommand (commandCycle w) ≠ some .prepareLatch ∧
      acceptedCommand (commandCycle w) ≠ some .latchRegister) ∧
    acceptedCommand { commandCycle 0x140 with rst := true } = none := by decide

/-- OnlyTheNamedCommandsWriteEachElement: a cycle in which no named command is accepted. -/
theorem witness_OnlyTheNamedCommandsWriteEachElement :
    (∀ b, acceptedCommand (commandCycle 0x140) ≠ some (.pushBit b)) ∧
    (∀ row, acceptedCommand (commandCycle 0x140) ≠ some (.clearRow row)) ∧
    (∀ row, acceptedCommand (commandCycle 0x140) ≠ some (.selectRow row)) := by
  refine ⟨?_, ?_, ?_⟩ <;> intro x h <;> exact absurd (Option.some.inj h) (by intro e; cases e)

theorem witness_ResetStepSetsEveryElement :
    (presented [{ commandCycle 0x140 with rst := true }]).inputs = { commandCycle 0x140 with rst := true } :: [] ∧
      ({ commandCycle 0x140 with rst := true } : PortCycle).rst = true := by decide

theorem witness_HoldingResetHoldsTheResetState :
    [resetCycle, reading 0 resetCycle] ≠ [] ∧ (∀ p ∈ [resetCycle, reading 0 resetCycle], p.rst = true) ∧
      (presented [resetCycle, reading 0 resetCycle, idleCycle]).inputs =
        [resetCycle, reading 0 resetCycle] ++ [idleCycle] := by decide

/-- A commit with a read, a cycle between, then a read of the top row, the bottom row or another row. -/
theorem witness_ReadInTheCommitCycleReturnsTheOldRow :
    (∀ y ∈ ([5, 21, 6, 20] : List RowNumber),
      ((holding 1 5).setInputs [reading y (commandCycle 0x140), commandCycle 0x041, reading y idleCycle]).inputs =
        reading y (commandCycle 0x140) :: [commandCycle 0x041] ++ reading y idleCycle :: [] ∧
      acceptedCommand (reading y (commandCycle 0x140)) = some .latchRegister ∧
      (reading y (commandCycle 0x140)).fbRdEn = true ∧
      (reading y idleCycle).rst = false ∧ (reading y idleCycle).fbRdEn = true) ∧
    (∀ c ∈ [commandCycle 0x041], c.rst = false ∧ acceptedCommand c ≠ some .latchRegister) ∧
    topY (holding 1 5).ra = 5 ∧ bottomY (holding 1 5).ra = 21 := by decide

theorem witness_SrReadShowsTheBufferBeforeTheCommand :
    (presented [{ idleCycle with srRdIdx := 191 }]).currentCycle.srRdIdx.toNat ≤ 191 ∧
      192 ≤ (presented [{ idleCycle with srRdIdx := 192 }]).currentCycle.srRdIdx.toNat := by decide

/-- A state with the notification up that has the invariant, and a step from it. -/
theorem witness_EveryStepKeepsNotifiedCommit :
    (holding 1 15).latch.commitValid = true ∧ NotifiedCommit (holding 1 15).latch ∧
      ∃ t, step (holding 1 15).latch = .next t := by
  refine ⟨rfl, ?_, ⟨_, step_eq _⟩⟩
  intro _
  exact ⟨rfl, rfl, fbRow_commit_top _ _ _, fbRow_commit_bottom _ _ _⟩

theorem witness_OnlyTheLast192PushesCount :
    192 ≤ (List.replicate 193 true).length ∧ 1 + 192 ≤ (List.replicate 193 true).length ∧
      0 + 192 ≤ (List.replicate 192 true).length := by
  simp only [List.length_replicate]; decide

theorem witness_short_payload :
    ([] : List Bool).length < 192 ∧ (List.replicate 191 true).length < 192 := by
  simp only [List.length_replicate]; decide

theorem witness_RingRefinesTheShiftChain : ringRepresents ringReset 0 := by
  intro i hi
  simp [ringGet, ringReset, srGet]

/-- LatchIsIdempotent: a stream that pushes nothing and selects nothing. -/
theorem witness_LatchIsIdempotent :
    (∀ b, Instr.pushBit b ∉ [Instr.prepareLatch, .srGet 0]) ∧
    (∀ row, Instr.clearRow row ∉ [Instr.prepareLatch, .srGet 0]) ∧
    (∀ row, Instr.selectRow row ∉ [Instr.prepareLatch, .srGet 0]) := by simp

theorem witness_CommandsCommuteAsListed :
    State.reset.displayEn = true ∧ (∃ b, Instr.pushBit true = .pushBit b) ∧
    (∃ row, Instr.selectRow 31 = .selectRow row) ∧ (∃ row, Instr.clearRow 0 = .clearRow row) :=
  ⟨by decide, ⟨_, rfl⟩, ⟨_, rfl⟩, ⟨_, rfl⟩⟩

theorem witness_ClearRowIsRedundantBeforeAFullPayload :
    192 ≤ (List.replicate 191 true).length + [false].length ∧
      192 ≤ ([] : List Bool).length + (List.replicate 192 true).length := by
  simp only [List.length_replicate]; decide

/-- ScanStepShowsItsPayload: columns 0 and 31, and a row of another row-pair. -/
theorem witness_ScanStepShowsItsPayload :
    0 < 32 ∧ 31 < 32 ∧ (14 : RowNumber) ≠ topY 15 ∧ (30 : RowNumber) ≠ bottomY 15 ∧
      (14 : RowNumber) ≠ bottomY 15 ∧ (30 : RowNumber) ≠ topY 15 := by decide

theorem witness_CyclesAgreeWithCommands :
    (∀ i ∈ [Instr.pushBit true, .rsvd6, .latchRegister], i.isCommand = true) ∧
      (presented (cyclesOf [Instr.pushBit true, .rsvd6, .latchRegister] ++ [resetCycle])).inputs =
        cyclesOf [Instr.pushBit true, .rsvd6, .latchRegister] ++ [resetCycle] := by
  constructor
  · decide
  · rfl

theorem witness_DisplayIsOffWhileAScanStepShifts :
    (presented (cyclesOf (scanStep 15 ⟨0, 1, 2, 3, 4, 5⟩) ++ [])).inputs =
        cyclesOf (scanStep 15 ⟨0, 1, 2, 3, 4, 5⟩) ++ [] ∧
      2 ≤ 2 ∧ 2 ≤ 195 ∧ 2 ≤ 195 ∧ 195 ≤ 195 :=
  ⟨rfl, by decide⟩

theorem witness_IdleCyclesChangeNothing : (holding 1 15).latch.inputs = [] := rfl

/-- Two different states that differ only in what the read ports hold and will be asked. -/
theorem witness_ReadsCannotDisturbTheBlock :
    (presented [reading 31 (commandCycle 0x0E0)]).inputs ≠ (presented [commandCycle 0x0E0]).inputs ∧
      (presented [reading 31 (commandCycle 0x0E0)]).withoutReads = (presented [commandCycle 0x0E0]).withoutReads := by
  constructor
  · decide
  · rfl

/-- Two different states that differ only in LatchState. -/
theorem witness_LatchStateGatesOnlyTheDisplay :
    State.reset.ls ≠ (State.reset.setLatch .hidden).ls ∧
      State.reset.withoutLatch = (State.reset.setLatch .hidden).withoutLatch := by
  constructor
  · decide
  · rfl

end Sys2Proof.Tests
end

section
/-! PROOFS. The statements about the state's elements (spec/10_state.md): the rows of a row-pair, and what
a clock cycle does to LatchState. -/

namespace Sys2Proof.Machine

/-! The rows of a row-pair (R26). -/

theorem topY_eq_iff (r : RowAddress) (y : RowNumber) : topY r = y ↔ r.toNat = y.toNat := by
  rw [← BitVec.toNat_inj, topY_toNat]

theorem bottomY_eq_iff (r : RowAddress) (y : RowNumber) : bottomY r = y ↔ r.toNat + 16 = y.toNat := by
  rw [← BitVec.toNat_inj, bottomY_toNat]

/-- A row is in the upper half, `y = r`, or in the lower half, `y = r + 16`; either way its row-pair is
the remainder. -/
theorem mem_rowPair_iff (y : RowNumber) (r : RowAddress) :
    (topY r = y ∨ bottomY r = y) ↔ r.toNat = y.toNat % 16 := by
  rw [topY_eq_iff, bottomY_eq_iff]
  have hr := r.isLt
  have hy := y.isLt
  omega

/-! What a clock cycle does, by the command it accepts. -/

/-- The state the command port meets at a clock edge with `rst = 0`: both read ports have been served
(R51, R142). -/
def State.afterReads (p : PortCycle) (s : State) : State :=
  let s₁ := s.readBit p.srRdIdx
  if p.fbRdEn then s₁.readRow p.fbRdY else s₁

@[simp] theorem State.afterReads_ls (p : PortCycle) (s : State) : (s.afterReads p).ls = s.ls := by
  cases h : p.fbRdEn <;> simp [State.afterReads, h]

theorem acceptedCommand_of_rst {p : PortCycle} (hr : p.rst = true) : acceptedCommand p = none := by
  simp [acceptedCommand, hr]

theorem acceptedCommand_eq_some_iff {p : PortCycle} {i : Instr} :
    acceptedCommand p = some i ↔ p.rst = false ∧ p.cmdValid = true ∧ decodeCommand p.cmd = i := by
  simp [acceptedCommand, and_assoc, and_left_comm]

theorem acceptedCommand_eq_none_iff {p : PortCycle} (hr : p.rst = false) :
    acceptedCommand p = none ↔ p.cmdValid = false := by
  simp [acceptedCommand, hr]

theorem cycle_of_rst {p : PortCycle} (hr : p.rst = true) (s : State) :
    cycle p s = .next (s.readBit p.srRdIdx).resetEdge := by
  rw [cycle_eq, if_pos hr]

theorem cycle_of_accepted {p : PortCycle} {i : Instr} (hi : acceptedCommand p = some i) (s : State) :
    cycle p s = .next (effect i (s.afterReads p)) := by
  obtain ⟨hr, hv, rfl⟩ := acceptedCommand_eq_some_iff.mp hi
  simp [cycle_eq, clockedState, State.afterReads, hr, hv]

theorem cycle_of_not_accepted {p : PortCycle} (hr : p.rst = false) (hn : acceptedCommand p = none)
    (s : State) : cycle p s = .next (s.afterReads p).noteNoCommit := by
  have hv := (acceptedCommand_eq_none_iff hr).mp hn
  simp [cycle_eq, clockedState, State.afterReads, hr, hv]

/-! LatchState (R29). -/

theorem effect_prepareLatch_ls (s : State) : (effect .prepareLatch s).ls = .hidden := rfl

theorem effect_latchRegister_ls (s : State) : (effect .latchRegister s).ls = .visible := rfl

/-- Only PREPARE_LATCH and LATCH_REGISTER write LatchState. -/
theorem effect_ls_of_ne {i : Instr} (hp : i ≠ .prepareLatch) (hl : i ≠ .latchRegister) (s : State) :
    (effect i s).ls = s.ls := by
  cases i with
  | prepareLatch => exact absurd rfl hp
  | latchRegister => exact absurd rfl hl
  | nop | selectRow | pushBit | clearRow | rsvd6 | rsvd7 | srGet | fbRead => rfl

/-- Settles O30: a cycle resets, accepts a command or accepts none, and the reads before it keep
LatchState. -/
theorem latchStateTransitions : Obligations.LatchStateTransitions := by
  intro p s
  cases hr : p.rst with
  | true =>
    refine ⟨_, cycle_of_rst hr s, fun _ => rfl, ?_⟩
    simp [acceptedCommand_of_rst hr]
  | false =>
    cases hc : acceptedCommand p with
    | none => exact ⟨_, cycle_of_not_accepted hr hc s, by simp⟩
    | some i =>
      refine ⟨_, cycle_of_accepted hc s, nofun, ?_, ?_, ?_⟩
      · rintro ⟨⟩
        exact effect_prepareLatch_ls _
      · rintro ⟨⟩
        exact effect_latchRegister_ls _
      · intro _ hp hl
        have hkept := effect_ls_of_ne (mt (congrArg some) hp) (mt (congrArg some) hl) (s.afterReads p)
        rw [hkept, State.afterReads_ls]

/-- Settles O7, from the row numbers of a row-pair's two rows. -/
theorem everyRowIsInOneRowPair : Obligations.EveryRowIsInOneRowPair :=
  ⟨fun r => ⟨topY_toNat r, bottomY_toNat r⟩, mem_rowPair_iff⟩

end Sys2Proof.Machine
end

section
/-! PROOFS. The statements about the frame buffer as a memory: the packed read word (spec/20_memory.md R43)
and a read against a commit (R50). -/

namespace Sys2Proof.Machine

/-! The packed read word (R43): a pixel is a three-bit digit of the row's number, so bit `3x + c` of the
word is bit `c` of pixel `x`. -/

@[simp] theorem pixelCode_testBit_zero (p : Pixel) : (pixelCode p).testBit 0 = p.r := by
  obtain ⟨r, g, b⟩ := p
  revert r g b; decide

@[simp] theorem pixelCode_testBit_one (p : Pixel) : (pixelCode p).testBit 1 = p.g := by
  obtain ⟨r, g, b⟩ := p
  revert r g b; decide

@[simp] theorem pixelCode_testBit_two (p : Pixel) : (pixelCode p).testBit 2 = p.b := by
  obtain ⟨r, g, b⟩ := p
  revert r g b; decide

/-- The low three bits of a packed list are its first pixel's, the bits above the rest's. -/
theorem packPixels_cons_testBit (p : Pixel) (ps : List Pixel) (i : Nat) :
    (packPixels (p :: ps)).testBit i =
      if i < 3 then (pixelCode p).testBit i else (packPixels ps).testBit (i - 3) := by
  have hdigit : packPixels (p :: ps) = 2 ^ 3 * packPixels ps + pixelCode p := Nat.add_comm _ _
  rw [hdigit, Nat.testBit_two_pow_mul_add _ (pixelCode_lt p)]

theorem packPixels_testBit {c : Nat} (hc : c < 3) (ps : List Pixel) (x : Nat) (hx : x < ps.length) :
    (packPixels ps).testBit (3 * x + c) = (pixelCode ps[x]).testBit c := by
  induction ps generalizing x with
  | nil => exact absurd hx (Nat.not_lt_zero x)
  | cons p ps ih =>
    rw [packPixels_cons_testBit]
    cases x with
    | zero => simp [hc]
    | succ x =>
      have habove : ¬3 * (x + 1) + c < 3 := by omega
      have hshift : 3 * (x + 1) + c - 3 = 3 * x + c := by omega
      rw [if_neg habove, hshift]
      exact ih x (Nat.lt_of_succ_lt_succ hx)

theorem pack_getLsbD (row : Row) {x c : Nat} (hx : x < 32) (hc : c < 3) :
    (pack row).getLsbD (3 * x + c) = (pixelCode row[x]).testBit c := by
  have hbit : 3 * x + c < 96 := by omega
  rw [pack, BitVec.getLsbD_ofNat, packPixels_testBit hc _ x (by simpa using hx)]
  simp [hbit]

theorem pack_channels (row : Row) {x : Nat} (hx : x < 32) :
    (pack row).getLsbD (3 * x + 0) = (row[x]).r ∧
    (pack row).getLsbD (3 * x + 1) = (row[x]).g ∧
    (pack row).getLsbD (3 * x + 2) = (row[x]).b := by
  refine ⟨?_, ?_, ?_⟩
  · rw [pack_getLsbD row hx (by decide), pixelCode_testBit_zero]
  · rw [pack_getLsbD row hx (by decide), pixelCode_testBit_one]
  · rw [pack_getLsbD row hx (by decide), pixelCode_testBit_two]

/-- Two pixels with the same three channels are equal. -/
theorem pixel_ext {p q : Pixel} (hr : p.r = q.r) (hg : p.g = q.g) (hb : p.b = q.b) : p = q := by
  cases p
  cases q
  rw [Pixel.mk.injEq]
  exact ⟨hr, hg, hb⟩

theorem pack_injective : Function.Injective pack := by
  intro row row' hpack
  refine Vector.ext fun x hx => ?_
  obtain ⟨hr, hg, hb⟩ := pack_channels row hx
  obtain ⟨hr', hg', hb'⟩ := pack_channels row' hx
  rw [hpack] at hr hg hb
  exact pixel_ext (hr.symm.trans hr') (hg.symm.trans hg') (hb.symm.trans hb')

/-- Settles O17: each channel is one bit of the pixel's digit, and the bits give back every pixel. -/
theorem packingPlacesEachChannel : Obligations.PackingPlacesEachChannel :=
  ⟨fun row _ hx => pack_channels row hx, fun _ _ hpack => pack_injective hpack⟩

/-! What the reads and the command of a cycle do to the frame buffer and its read register. -/

@[simp] theorem State.afterReads_sr (p : PortCycle) (s : State) : (s.afterReads p).sr = s.sr := by
  cases h : p.fbRdEn <;> simp [State.afterReads, h]

@[simp] theorem State.afterReads_ra (p : PortCycle) (s : State) : (s.afterReads p).ra = s.ra := by
  cases h : p.fbRdEn <;> simp [State.afterReads, h]

@[simp] theorem State.afterReads_fb (p : PortCycle) (s : State) : (s.afterReads p).fb = s.fb := by
  cases h : p.fbRdEn <;> simp [State.afterReads, h]

@[simp] theorem State.afterReads_inputs (p : PortCycle) (s : State) :
    (s.afterReads p).inputs = s.inputs := by
  cases h : p.fbRdEn <;> simp [State.afterReads, h]

/-- The read register at a clock edge with `rst = 0` (R114). -/
@[simp] theorem State.afterReads_fbRdData (p : PortCycle) (s : State) :
    (s.afterReads p).fbRdData = if p.fbRdEn then pack (fbRow s.fb p.fbRdY) else s.fbRdData := by
  cases h : p.fbRdEn <;> simp [State.afterReads, h]

@[simp] theorem effect_inputs (i : Instr) (s : State) : (effect i s).inputs = s.inputs := by
  cases i <;> rfl

/-- Only LATCH_REGISTER writes the frame buffer (R32). -/
theorem effect_fb (i : Instr) (s : State) :
    (effect i s).fb = if i = .latchRegister then commit s.fb s.sr s.ra else s.fb := by
  cases i <;> rfl

/-- Only a frame-buffer read writes the read register, and it is no command (R34, R69). -/
theorem effect_fbRdData_of_isCommand {i : Instr} (hi : i.isCommand = true) (s : State) :
    (effect i s).fbRdData = s.fbRdData := by
  cases i with
  | fbRead y => cases hi
  | nop | selectRow | prepareLatch | pushBit | clearRow | latchRegister | rsvd6 | rsvd7 | srGet => rfl

theorem commandOfOp_isCommand (op : BitVec 3) (b : Bool) (row : RowOperand) :
    (commandOfOp op b row).isCommand = true := by
  unfold commandOfOp
  split <;> rfl

theorem isCommand_of_acceptedCommand {p : PortCycle} {i : Instr} (hi : acceptedCommand p = some i) :
    i.isCommand = true := by
  obtain ⟨-, -, rfl⟩ := acceptedCommand_eq_some_iff.mp hi
  exact commandOfOp_isCommand _ _ _

/-- A clock edge with `rst = 0`: a requested read takes the row as the cycle finds it, and only an accepted
LATCH_REGISTER writes the frame buffer (R50, R111, R114). -/
theorem cycle_frame_of_not_rst {p : PortCycle} (hr : p.rst = false) (s : State) :
    ∃ t, cycle p s = .next t ∧ t.inputs = s.inputs ∧
      t.fbRdData = (if p.fbRdEn then pack (fbRow s.fb p.fbRdY) else s.fbRdData) ∧
      t.fb = if acceptedCommand p = some .latchRegister then commit s.fb s.sr s.ra else s.fb := by
  cases hc : acceptedCommand p with
  | none => exact ⟨_, cycle_of_not_accepted hr hc s, by simp⟩
  | some i =>
    have hdata := effect_fbRdData_of_isCommand (isCommand_of_acceptedCommand hc) (s.afterReads p)
    exact ⟨_, cycle_of_accepted hc s, by simp [hdata, effect_fb]⟩

/-! A read against a commit, over several cycles (R50). -/

theorem step_of_inputs {s : State} {p : PortCycle} {rest : List PortCycle} (hin : s.inputs = p :: rest) :
    step s = cycle p (s.setInputs rest) := by
  simp [step, State.currentCycle, State.takeCycle, hin]

/-- `cycle_frame_of_not_rst` for the step that takes the cycle from the inputs. -/
theorem step_frame_of_not_rst {s : State} {p : PortCycle} {rest : List PortCycle}
    (hin : s.inputs = p :: rest) (hr : p.rst = false) :
    ∃ t, step s = .next t ∧ t.inputs = rest ∧
      t.fbRdData = (if p.fbRdEn then pack (fbRow s.fb p.fbRdY) else s.fbRdData) ∧
      t.fb = if acceptedCommand p = some .latchRegister then commit s.fb s.sr s.ra else s.fb := by
  rw [step_of_inputs hin]
  exact cycle_frame_of_not_rst hr (s.setInputs rest)

/-- Cycles with neither a reset nor a LATCH_REGISTER keep the frame buffer. -/
theorem runCycles_keeps_frame {cs rest : List PortCycle} {s : State} (hin : s.inputs = cs ++ rest)
    (hcs : ∀ c ∈ cs, c.rst = false ∧ acceptedCommand c ≠ some .latchRegister) :
    ∃ t, runCycles cs.length s = .next t ∧ t.inputs = rest ∧ t.fb = s.fb := by
  induction cs generalizing s with
  | nil => exact ⟨s, rfl, hin, rfl⟩
  | cons c cs ih =>
    obtain ⟨⟨hrst, hlatch⟩, hcs⟩ := List.forall_mem_cons.mp hcs
    obtain ⟨u, hstep, huin, -, hufb⟩ := step_frame_of_not_rst hin hrst
    obtain ⟨t, hrun, htin, htfb⟩ := ih huin hcs
    refine ⟨t, ?_, htin, ?_⟩
    · rw [List.length_cons, runCycles, hstep, andThen_next, hrun]
    · rw [htfb, hufb, if_neg hlatch]

/-- Settles O27: the first step reads the old frame and commits, the cycles between keep the committed
frame, and the last step reads it. -/
theorem readInTheCommitCycleReturnsTheOldRow : Obligations.ReadInTheCommitCycleReturnsTheOldRow := by
  intro p q between rest s hin hlatch hpread hbetween hqrst hqread
  obtain ⟨hprst, -, -⟩ := acceptedCommand_eq_some_iff.mp hlatch
  obtain ⟨t, hst, htin, htdata, htfb⟩ := step_frame_of_not_rst hin hprst
  obtain ⟨u, htu, huin, hufb⟩ := runCycles_keeps_frame htin hbetween
  obtain ⟨v, huv, -, hvdata, -⟩ := step_frame_of_not_rst huin hqrst
  rw [if_pos hpread] at htdata
  rw [if_pos hlatch] at htfb
  rw [if_pos hqread, hufb, htfb] at hvdata
  refine ⟨t, u, v, hst, htu, huv, htdata, ?_, ?_, ?_⟩
  · intro htop
    rw [hvdata, htop, fbRow_commit_top]
  · intro hbottom
    rw [hvdata, hbottom, fbRow_commit_bottom]
  · intro htop hbottom
    rw [hvdata, fbRow_commit_other _ _ _ htop hbottom]

end Sys2Proof.Machine
end

section
/-! PROOFS. The statements about the encoding (spec/30_encoding.md): the fields of a command word, what the
opcode decides, the ROW operand, and a cycle in which no command is accepted. -/

namespace Sys2Proof

/-! A command word is its three fields (R61). -/

/-- ROW below bit 5, B at it, OP above. -/
theorem commandWord_getLsbD (op : BitVec 3) (b : Bool) (row : RowOperand) (i : Nat) :
    (commandWord op b row).getLsbD i =
      if i < 5 then row.getLsbD i else if i = 5 then b else op.getLsbD (i - 6) := by
  have happend : (commandWord op b row).getLsbD i =
      BitVec.getLsbD (w := 3 + 1 + 5) (op ++ BitVec.ofBool b ++ row) i := rfl
  rw [happend, BitVec.getLsbD_append, BitVec.getLsbD_append, BitVec.getLsbD_ofBool]
  grind

@[simp] theorem opField_commandWord (op : BitVec 3) (b : Bool) (row : RowOperand) :
    opField (commandWord op b row) = op := by
  refine BitVec.eq_of_getLsbD_eq fun i hi => ?_
  have hrow : ¬6 + i < 5 := by omega
  have hbit : 6 + i ≠ 5 := by omega
  simp only [opField, BitVec.getLsbD_extractLsb', commandWord_getLsbD, hi, hrow, hbit]
  simp

@[simp] theorem bitField_commandWord (op : BitVec 3) (b : Bool) (row : RowOperand) :
    bitField (commandWord op b row) = b :=
  commandWord_getLsbD op b row 5

@[simp] theorem rowField_commandWord (op : BitVec 3) (b : Bool) (row : RowOperand) :
    rowField (commandWord op b row) = row := by
  refine BitVec.eq_of_getLsbD_eq fun i hi => ?_
  simp only [rowField, BitVec.getLsbD_extractLsb', commandWord_getLsbD, Nat.zero_add, hi]
  simp

theorem commandWord_fields (w : CommandWord) :
    commandWord (opField w) (bitField w) (rowField w) = w := by
  refine BitVec.eq_of_getLsbD_eq fun i hi => ?_
  rw [commandWord_getLsbD, opField, bitField, rowField, BitVec.getLsbD_extractLsb',
    BitVec.getLsbD_extractLsb']
  grind

theorem exists_commandWord (w : CommandWord) : ∃ op b row, commandWord op b row = w :=
  ⟨_, _, _, commandWord_fields w⟩

theorem commandWord_inj {op op' : BitVec 3} {b b' : Bool} {row row' : RowOperand} :
    commandWord op b row = commandWord op' b' row' ↔ op = op' ∧ b = b' ∧ row = row' := by
  constructor
  · intro h
    exact ⟨by simpa using congrArg opField h, by simpa using congrArg bitField h,
      by simpa using congrArg rowField h⟩
  · rintro ⟨rfl, rfl, rfl⟩
    rfl

/-- Masking a word masks each field. -/
theorem commandWord_and (op op' : BitVec 3) (b b' : Bool) (row row' : RowOperand) :
    commandWord op b row &&& commandWord op' b' row' =
      commandWord (op &&& op') (b && b') (row &&& row') := by
  refine BitVec.eq_of_getLsbD_eq fun i _ => ?_
  simp only [BitVec.getLsbD_and, commandWord_getLsbD]
  split_ifs <;> rfl

@[simp] theorem decodeCommand_commandWord (op : BitVec 3) (b : Bool) (row : RowOperand) :
    decodeCommand (commandWord op b row) = commandOfOp op b row := by
  simp [decodeCommand]

/-! The opcode decides the command, its row of the opcode map and the operand field it uses (R62). -/

theorem opcode_cases (op : BitVec 3) :
    op = 0 ∨ op = 1 ∨ op = 2 ∨ op = 3 ∨ op = 4 ∨ op = 5 ∨ op = 6 ∨ op = 7 := by
  revert op; decide

/-- The B bit of the mask of the bits an opcode's command uses: PUSH_BIT alone uses it (R67). -/
def usedB (op : BitVec 3) : Bool := op == 3

/-- The ROW bits of the mask: SELECT_ROW and CLEAR_ROW use them, all or none (R66). -/
def usedRow (op : BitVec 3) : RowOperand := if op = 1 ∨ op = 4 then BitVec.allOnes 5 else 0

theorem and_usedRow (row : RowOperand) (op : BitVec 3) :
    row &&& usedRow op = if op = 1 ∨ op = 4 then row else 0 := by
  unfold usedRow
  split
  · exact BitVec.and_allOnes
  · exact BitVec.and_zero

theorem usedBits_commandOfOp (op : BitVec 3) (b : Bool) (row : RowOperand) :
    usedBits (commandOfOp op b row) = commandWord (BitVec.allOnes 3) (usedB op) (usedRow op) := by
  rcases opcode_cases op with rfl | rfl | rfl | rfl | rfl | rfl | rfl | rfl <;> rfl

/-- The canonical word keeps the used fields and has 0 in the others. -/
theorem encode_commandOfOp (op : BitVec 3) (b : Bool) (row : RowOperand) :
    encode (commandOfOp op b row) = .command (commandWord op (b && usedB op) (row &&& usedRow op)) := by
  rcases opcode_cases op with rfl | rfl | rfl | rfl | rfl | rfl | rfl | rfl <;>
    simp [commandOfOp, encode, usedB, and_usedRow]

/-- A command depends on the fields it uses only (R63). -/
theorem commandOfOp_usedFields (op : BitVec 3) (b : Bool) (row : RowOperand) :
    commandOfOp op (b && usedB op) (row &&& usedRow op) = commandOfOp op b row := by
  rcases opcode_cases op with rfl | rfl | rfl | rfl | rfl | rfl | rfl | rfl <;>
    simp [commandOfOp, usedB, and_usedRow]

theorem commandWord_and_usedBits (op op' : BitVec 3) (b b' : Bool) (row row' : RowOperand) :
    commandWord op b row &&& usedBits (commandOfOp op' b' row') =
      commandWord op (b && usedB op') (row &&& usedRow op') := by
  rw [usedBits_commandOfOp, commandWord_and, BitVec.and_allOnes]

/-- Settles O4: masking with the used bits keeps OP and the operand field that OP's command uses. -/
theorem ignoredBitsDoNotMatter : Obligations.IgnoredBitsDoNotMatter := by
  intro w
  obtain ⟨op, b, row, rfl⟩ := exists_commandWord w
  simp only [decodeCommand_commandWord, commandWord_and_usedBits]
  refine ⟨encode_commandOfOp op b row, fun v hv => ?_⟩
  obtain ⟨op', b', row', rfl⟩ := exists_commandWord v
  rw [commandWord_and_usedBits, commandWord_inj] at hv
  obtain ⟨rfl, hb, hrow⟩ := hv
  rw [decodeCommand_commandWord, ← commandOfOp_usedFields, hb, hrow, commandOfOp_usedFields]

/-! The opcode map (R62): the mask of every command row is OP. -/

theorem commandWord_and_opMask (op : BitVec 3) (b : Bool) (row : RowOperand) :
    commandWord op b row &&& 0x1C0 = commandWord op false 0 := by
  have hmask : (0x1C0 : CommandWord) = commandWord (BitVec.allOnes 3) false 0 := rfl
  rw [hmask, commandWord_and, BitVec.and_allOnes, Bool.and_false]
  exact congrArg (commandWord op false) BitVec.and_zero

theorem commandWord_mem_commandMatches (op : BitVec 3) : commandWord op false 0 ∈ commandMatches := by
  revert op; decide

theorem tableMatch_commandOfOp (op : BitVec 3) (b : Bool) (row : RowOperand) :
    tableMatch (commandOfOp op b row) = (commandWord op false 0).toNat := by
  rcases opcode_cases op with rfl | rfl | rfl | rfl | rfl | rfl | rfl | rfl <;> rfl

theorem tableMask_of_isCommand {i : Instr} (hi : i.isCommand = true) : tableMask i = 0x1C0 := by
  cases i with
  | srGet | fbRead => cases hi
  | nop | selectRow | prepareLatch | pushBit | clearRow | latchRegister | rsvd6 | rsvd7 => rfl

/-- Settles O1: the masked word is OP with the other fields 0, one of the listed match values. -/
theorem exactlyOneTableRowMatches : Obligations.ExactlyOneTableRowMatches := by
  intro w
  obtain ⟨op, b, row, rfl⟩ := exists_commandWord w
  rw [decodeCommand_commandWord, commandWord_and_opMask]
  refine ⟨⟨_, ⟨commandWord_mem_commandMatches op, rfl⟩, fun m ⟨_, hm⟩ => hm.symm⟩, ?_, ?_⟩
  · exact (tableMatch_commandOfOp op b row).symm
  · exact tableMask_of_isCommand (Machine.commandOfOp_isCommand op b row)

end Sys2Proof

namespace Sys2Proof.Machine

/-! The ROW operand (R66). -/

/-- The Euclidean remainder by 16 fits the RowAddress. -/
theorem rowAddressOf_toNat (row : RowOperand) :
    ((rowAddressOf row).toNat : Int) = ((row.toNat : Int) - 1) % 16 := by
  rw [rowAddressOf, BitVec.toNat_ofInt]
  omega

/-- Settles O6: adding 15 is subtracting 1, modulo 16. -/
theorem rowOperandIsNormalised : Obligations.RowOperandIsNormalised := by
  intro row
  have hmod := rowAddressOf_toNat row
  exact ⟨hmod, by omega⟩

/-! A cycle in which no command is accepted (R65). -/

/-- Without `cmd_valid` the edge does not look at the word, and neither does the reset step. -/
theorem cycle_ignores_cmd {p : PortCycle} (h : p.cmdValid = false ∨ p.rst = true) (w : CommandWord)
    (s : State) : cycle { p with cmd := w } s = cycle p s := by
  rcases h with hv | hr
  · simp [cycle_eq, clockedState, hv]
  · simp [cycle_eq, hr]

/-- The reads write the ports' own values and nothing else. -/
theorem State.afterReads_frame (p : PortCycle) (s : State) :
    s.afterReads p =
      { s with fbRdData := (s.afterReads p).fbRdData, srRdBit := (s.afterReads p).srRdBit } := by
  unfold State.afterReads
  split <;> rfl

/-- Settles O22: such a cycle is its reads and the fall of `commit_valid`. -/
theorem noCommandChangesNoBlockState : Obligations.NoCommandChangesNoBlockState := by
  refine ⟨fun p w s h => cycle_ignores_cmd h w s, fun p s hv hr => ?_⟩
  have hnone := (acceptedCommand_eq_none_iff hr).mpr hv
  refine ⟨_, cycle_of_not_accepted hr hnone s, fun hread => by simp [hread], ?_⟩
  rw [State.afterReads_frame]
  rfl

end Sys2Proof.Machine
end

section
/-! PROOFS. The statements about the shift register (spec/40_shift_register_buffer.md): the buffer as the
history of pushes (R83 to R85), and the ring form (R86). -/

namespace Sys2Proof.Machine

/-! A run of pushes (R80): an old bit moves down by the number of pushes, and the pushed bits stand above
the old ones. -/

theorem srGet_foldl_srPush (bs : List Bool) (l : Buffer) {i : Nat} (hi : i < 192) :
    srGet (bs.foldl srPush l) i =
      if i + bs.length < 192 then srGet l (i + bs.length)
      else bs.getD (i + bs.length - 192) false := by
  induction bs generalizing l with
  | nil => simp [hi]
  | cons b bs ih =>
    rw [List.foldl_cons, ih, srGet_srPush, List.length_cons]
    rcases Nat.lt_trichotomy (i + bs.length) 191 with hold | hnew | hpushed
    · -- the bit was in the buffer before the first push
      rw [if_pos (by omega), if_neg (by omega), if_pos (by omega), Nat.add_assoc]
    · -- the bit is the first one pushed
      have hzero : i + (bs.length + 1) - 192 = 0 := by omega
      rw [if_pos (by omega), if_pos hnew, if_neg (by omega), hzero, List.getD_cons_zero]
    · -- the bit was pushed later
      have hsucc : i + (bs.length + 1) - 192 = i + bs.length - 192 + 1 := by omega
      rw [if_neg (by omega), if_neg (by omega), hsucc, List.getD_cons_succ]

/-- Once 192 bits are pushed, every bit of the buffer is a pushed one (R84). -/
theorem srGet_foldl_srPush_of_le {bs : List Bool} (hbs : 192 ≤ bs.length) (l : Buffer) {i : Nat}
    (hi : i < 192) : srGet (bs.foldl srPush l) i = bs.getD (i + bs.length - 192) false := by
  rw [srGet_foldl_srPush bs l hi, if_neg (by omega)]

theorem foldl_srPush_indep {bs : List Bool} (hbs : 192 ≤ bs.length) (l m : Buffer) :
    bs.foldl srPush l = bs.foldl srPush m :=
  buffer_ext fun i hi => by
    rw [srGet_foldl_srPush_of_le hbs l hi, srGet_foldl_srPush_of_le hbs m hi]

/-- Bits with 192 more after them leave no trace: they only change the buffer the last ones start from. -/
theorem foldl_srPush_drop {bs : List Bool} {k : Nat} (hk : k + 192 ≤ bs.length) (l : Buffer) :
    (bs.drop k).foldl srPush l = bs.foldl srPush l := by
  have hdrop : 192 ≤ (bs.drop k).length := by rw [List.length_drop]; omega
  calc (bs.drop k).foldl srPush l
      = (bs.drop k).foldl srPush ((bs.take k).foldl srPush l) := foldl_srPush_indep hdrop _ _
    _ = bs.foldl srPush l := by rw [← List.foldl_append, List.take_append_drop]

@[simp] theorem zeroPushes_length : zeroPushes.length = 192 := List.length_replicate

/-- The one-step clear is 192 pushes of zero (R85). -/
theorem foldl_srPush_zeroPushes (l : Buffer) : zeroPushes.foldl srPush l = srCleared :=
  buffer_ext fun i hi => by
    rw [srGet_foldl_srPush_of_le zeroPushes_length.ge l hi, zeroPushes_length,
      Nat.add_sub_cancel, srGet_srCleared]
    exact List.getD_replicate false hi

/-! The buffer over streams of commands. -/

/-- An instruction does to the buffer what the bits it pushes do; CLEAR_ROW pushes 192 zeros (R83, R94). -/
theorem effect_sr (i : Instr) (s : State) : (effect i s).sr = (pushedBits i).foldl srPush s.sr := by
  cases i with
  | clearRow row => exact (foldl_srPush_zeroPushes s.sr).symm
  | nop | selectRow | prepareLatch | pushBit | latchRegister | rsvd6 | rsvd7 | srGet | fbRead => rfl

theorem runCommands_sr (is : List Instr) (s : State) :
    ∃ t, runCommands is s = .next t ∧ t.sr = (pushHistory is).foldl srPush s.sr := by
  induction is generalizing s with
  | nil => exact ⟨s, rfl, rfl⟩
  | cons i is ih =>
    obtain ⟨t, hrun, hsr⟩ := ih (effect i s)
    have hhist : pushHistory (i :: is) = pushedBits i ++ pushHistory is := List.flatMap_cons
    refine ⟨t, by rw [runCommands_cons, hrun], ?_⟩
    rw [hsr, effect_sr, hhist, List.foldl_append]

/-- Settles O34: the history is pushed into the zeros of reset. -/
theorem bufferHoldsThePushHistory : Obligations.BufferHoldsThePushHistory := by
  intro is
  obtain ⟨t, hrun, hsr⟩ := runCommands_sr is State.reset
  refine ⟨t, hrun, fun k hk => ?_⟩
  have hreset : State.reset.sr = srCleared := rfl
  rw [hsr, hreset, srGet_foldl_srPush _ _ (by omega), srGet_srCleared]
  by_cases hpushed : k < (pushHistory is).length
  · have hidx : 191 - k + (pushHistory is).length - 192 = (pushHistory is).length - 1 - k := by omega
    rw [if_neg (by omega), if_pos hpushed, hidx]
  · rw [if_pos (by omega), if_neg hpushed]

/-- PUSH_BITs change the buffer and, if there is one, drop `commit_valid` (R93, R115). -/
theorem runCommands_pushBits (bs : List Bool) (s : State) :
    runCommands (pushBits bs) s =
      .next { s with sr := bs.foldl srPush s.sr, commitValid := s.commitValid && bs.isEmpty } := by
  induction bs generalizing s with
  | nil => simp [pushBits]
  | cons b bs ih =>
    have hcons : pushBits (b :: bs) = .pushBit b :: pushBits bs := rfl
    rw [hcons, runCommands_cons, ih]
    simp [effect, State.push, State.setBuffer, State.noteNoCommit, State.setCommitValid]

/-- The state a latch after PUSH_BITs leaves: the latch sets `commit_valid` whatever it was. -/
theorem runCommands_pushBits_latch (bs : List Bool) (s : State) :
    runCommands (pushBits bs ++ [.latchRegister]) s =
      .next (s.setBuffer (bs.foldl srPush s.sr)).latch := by
  rw [runCommands_append, runCommands_pushBits, andThen_next, runCommands_cons, runCommands_nil]
  rfl

/-- Settles O35: the bits pushed before the last 192 are no longer in the buffer a latch reads. -/
theorem onlyTheLast192PushesCount : Obligations.OnlyTheLast192PushesCount := by
  intro bs s hbs
  refine ⟨⟨_, runCommands_pushBits bs s, fun k hk => ?_⟩, fun k hk => ?_⟩
  · have hidx : k + bs.length - 192 = bs.length - 192 + k := by omega
    rw [srGet_foldl_srPush_of_le hbs s.sr (by omega), hidx]
  · rw [runCommands_pushBits_latch, runCommands_pushBits_latch, foldl_srPush_drop hk]

/-! The ring form (R24, R86). -/

theorem ringPush_oldest_val (a : RingBuffer) (b : Bool) :
    (ringPush a b).oldest.val = (a.oldest.val + 1) % 192 := Fin.val_add a.oldest 1

/-- Every bit of a pushed ring, as `srGet_srPush` has it for the buffer: the cell written was the oldest
and becomes the newest. -/
theorem ringGet_ringPush (a : RingBuffer) (b : Bool) {i : Nat} (hi : i < 192) :
    ringGet (ringPush a b) i = if i = 191 then b else ringGet a (i + 1) := by
  have ho := a.oldest.isLt
  have hcell : ((ringPush a b).oldest.val + i) % 192 = (a.oldest.val + (i + 1)) % 192 := by
    rw [ringPush_oldest_val]; omega
  have hwritten : a.oldest.val = (a.oldest.val + (i + 1)) % 192 ↔ i = 191 := by omega
  simp only [ringGet, hcell]
  simp only [ringPush, Vector.getElem_set, hwritten]

theorem ringRepresents_ringPush {a : RingBuffer} {l : Buffer} (h : ringRepresents a l) (b : Bool) :
    ringRepresents (ringPush a b) (srPush l b) := by
  intro i hi
  rw [srGet_srPush, ringGet_ringPush a b hi]
  by_cases hnew : i = 191
  · rw [if_pos hnew, if_pos hnew]
  · rw [if_neg hnew, if_neg hnew, h (i + 1) (by omega)]

theorem ringRepresents_foldl {a : RingBuffer} {l : Buffer} (h : ringRepresents a l) (bs : List Bool) :
    ringRepresents (bs.foldl ringPush a) (bs.foldl srPush l) := by
  induction bs generalizing a l with
  | nil => exact h
  | cons b bs ih => exact ih (ringRepresents_ringPush h b)

theorem ringRepresents_ringClear (a : RingBuffer) : ringRepresents (ringClear a) srCleared := by
  intro i _
  simp [ringGet, ringClear]

/-- Settles O38: reset is a cleared ring, and each push keeps the relation. -/
theorem ringRefinesTheShiftChain : Obligations.RingRefinesTheShiftChain :=
  ⟨fun _ _ b h => ringRepresents_ringPush h b,
    ringRepresents_foldl (ringRepresents_ringClear ringReset)⟩

/-- Every ring holds a buffer: the bits it answers. -/
theorem exists_ringRepresents (a : RingBuffer) : ∃ l, ringRepresents a l :=
  ⟨BitVec.ofFnLE fun i : Fin 192 => ringGet a i, fun i hi => by
    rw [srGet, BitVec.getLsbD_ofFnLE, dif_pos hi]⟩

/-- The cell `j` is the logical index `j - o` modulo 192. -/
theorem ringGet_of_cell (a : RingBuffer) {j : Nat} (hj : j < 192) :
    ringGet a ((j + 192 - a.oldest.val) % 192) = a.cells[j] := by
  have ho := a.oldest.isLt
  have hcell : (a.oldest.val + (j + 192 - a.oldest.val) % 192) % 192 = j := by omega
  simp only [ringGet, hcell]

/-- The oldest index and the buffer held determine the ring. -/
theorem ring_ext {a a' : RingBuffer} {l : Buffer} (ho : a.oldest = a'.oldest)
    (h : ringRepresents a l) (h' : ringRepresents a' l) : a = a' := by
  have hcells : a.cells = a'.cells := Vector.ext fun j hj => by
    have hi : (j + 192 - a.oldest.val) % 192 < 192 := Nat.mod_lt _ (by decide)
    rw [← ringGet_of_cell a hj, ← h _ hi, h' _ hi, ho, ringGet_of_cell a' hj]
  rw [RingBuffer.mk.injEq]
  exact ⟨hcells, ho⟩

theorem foldl_ringPush_oldest_val (bs : List Bool) (a : RingBuffer) :
    (bs.foldl ringPush a).oldest.val = (a.oldest.val + bs.length) % 192 := by
  induction bs generalizing a with
  | nil => exact (Nat.mod_eq_of_lt a.oldest.isLt).symm
  | cons b bs ih =>
    rw [List.foldl_cons, ih, ringPush_oldest_val, List.length_cons]
    omega

/-- 192 pushes take the oldest index once around the ring (R85). -/
theorem foldl_ringPush_zeroPushes (a : RingBuffer) : zeroPushes.foldl ringPush a = ringClear a := by
  obtain ⟨l, hl⟩ := exists_ringRepresents a
  have hpushed := ringRepresents_foldl hl zeroPushes
  rw [foldl_srPush_zeroPushes] at hpushed
  have hround : (zeroPushes.foldl ringPush a).oldest = a.oldest := Fin.ext <| by
    rw [foldl_ringPush_oldest_val, zeroPushes_length, Nat.add_mod_right,
      Nat.mod_eq_of_lt a.oldest.isLt]
  exact ring_ext hround hpushed (ringRepresents_ringClear a)

/-- Settles O37: in the buffer from the rule for pushes, in a ring from the buffer it holds. -/
theorem zeroPushesClearTheBuffer : Obligations.ZeroPushesClearTheBuffer :=
  ⟨foldl_srPush_zeroPushes, fun a =>
    ⟨foldl_ringPush_zeroPushes a, rfl, ringRepresents_ringClear a⟩⟩

end Sys2Proof.Machine
end

section
/-! PROOFS. The statements about the commands (spec/41_protocol_primitives.md): what each one decodes from,
changes and leaves unchanged (R90 to R96), and which of them commute (R98). -/

namespace Sys2Proof

/-- The masked word is the opcode with the other fields 0, and the opcode decides the command (R62). -/
theorem decodeCommand_of_masked {w : CommandWord} {op : BitVec 3}
    (h : w &&& 0x1C0 = commandWord op false 0) :
    decodeCommand w = commandOfOp op (bitField w) (rowField w) := by
  obtain ⟨op', b, row, rfl⟩ := exists_commandWord w
  rw [commandWord_and_opMask, commandWord_inj] at h
  obtain ⟨rfl, -, -⟩ := h
  rw [decodeCommand_commandWord, bitField_commandWord, rowField_commandWord]

theorem decodeCommand_nop {w : CommandWord} (h : w &&& 0x1C0 = 0x000) : decodeCommand w = .nop :=
  decodeCommand_of_masked (op := 0) h

end Sys2Proof

namespace Sys2Proof.Machine

/-! Commands that write at most one element (R90 to R93, R96). -/

/-- Accepting a NOP and accepting no command are the same edge, and a reset cycle accepts neither. -/
theorem cycle_nop_eq_no_command {w : CommandWord} (hw : decodeCommand w = .nop) (p : PortCycle) (s : State) :
    cycle { p with cmdValid := true, cmd := w } s = cycle { p with cmdValid := false } s := by
  rcases Bool.eq_false_or_eq_true p.rst with hr | hr
  · simp [cycle_eq, hr]
  · have hnop : acceptedCommand { p with cmdValid := true, cmd := w } = some .nop :=
      acceptedCommand_eq_some_iff.mpr ⟨hr, rfl, hw⟩
    have hnone : acceptedCommand { p with cmdValid := false } = none := by simp [acceptedCommand]
    rw [cycle_of_accepted hnop, cycle_of_not_accepted (p := { p with cmdValid := false }) hr hnone]
    rfl

/-- Settles O8. -/
theorem nopChangesNothing : Obligations.NopChangesNothing :=
  ⟨fun _ => decodeCommand_nop, exec_eq_effect .nop,
    fun p _ s hw => cycle_nop_eq_no_command (decodeCommand_nop hw) p s⟩

/-- Settles O9: both forms of the RowAddress are those of the operand's normalisation. -/
theorem selectRowSetsRowAddress : Obligations.SelectRowSetsRowAddress := by
  refine ⟨fun _ => decodeCommand_of_masked (op := 1), fun row s => ?_⟩
  obtain ⟨hint, hnat⟩ := rowOperandIsNormalised row
  exact ⟨_, exec_eq_effect _ s, hint, hnat, rfl⟩

/-- Settles O10. -/
theorem prepareLatchHides : Obligations.PrepareLatchHides :=
  ⟨fun _ => decodeCommand_of_masked (op := 2), fun s => ⟨_, exec_eq_effect _ s, rfl, rfl⟩⟩

/-- Settles O11: the bits are those of a pushed buffer. -/
theorem pushBitShiftsTheBuffer : Obligations.PushBitShiftsTheBuffer := by
  refine ⟨fun _ => decodeCommand_of_masked (op := 3), fun b s => ?_⟩
  refine ⟨_, exec_eq_effect _ s, fun i hi => ?_, ?_, rfl⟩
  · exact (srGet_srPush s.sr b i).trans (if_neg (by omega))
  · exact (srGet_srPush s.sr b 191).trans (if_pos rfl)

/-- Settles O14. -/
theorem reservedWordsActAsNop : Obligations.ReservedWordsActAsNop :=
  ⟨fun _ => ⟨decodeCommand_of_masked (op := 6), decodeCommand_of_masked (op := 7)⟩,
    fun s => ⟨exec_eq_effect .rsvd6 s, exec_eq_effect .rsvd7 s, rfl, rfl⟩⟩

/-! CLEAR_ROW (R94). -/

/-- The pushes clear the buffer and keep the RowAddress SELECT_ROW left. -/
theorem runCommands_selectRow_zeroPushes (row : RowOperand) (s : State) :
    runCommands (.selectRow row :: pushBits zeroPushes) s = .next (effect (.clearRow row) s) := by
  rw [runCommands_cons, runCommands_pushBits, foldl_srPush_zeroPushes]
  rfl

/-- Settles O12. -/
theorem clearRowIsSelectRowAndZeroPushes : Obligations.ClearRowIsSelectRowAndZeroPushes :=
  ⟨fun _ => decodeCommand_of_masked (op := 4), fun row s =>
    ⟨_, exec_eq_effect _ s, rowAddressOf_toNat row, fun i _ => srGet_srCleared i, rfl,
      runCommands_selectRow_zeroPushes row s⟩⟩

/-! LATCH_REGISTER (R95, R110, R111), pixel by pixel. -/

theorem fbPixel_commit_top (f : FrameBuffer) (l : Buffer) (r : RowAddress) (x : Column) :
    fbPixel (commit f l r) (topY r) x =
      { r := srGet l (0 + x.toNat), g := srGet l (32 + x.toNat), b := srGet l (64 + x.toNat) } := by
  simp only [fbPixel, fbRow_commit_top, decodeTop_getElem, Nat.zero_add]

theorem fbPixel_commit_bottom (f : FrameBuffer) (l : Buffer) (r : RowAddress) (x : Column) :
    fbPixel (commit f l r) (bottomY r) x =
      { r := srGet l (96 + x.toNat), g := srGet l (128 + x.toNat), b := srGet l (160 + x.toNat) } := by
  simp only [fbPixel, fbRow_commit_bottom, decodeBottom_getElem]

theorem fbPixel_commit_other (f : FrameBuffer) (l : Buffer) (r : RowAddress) {y : RowNumber} (x : Column)
    (ht : y ≠ topY r) (hb : y ≠ bottomY r) : fbPixel (commit f l r) y x = fbPixel f y x := by
  simp only [fbPixel, fbRow_commit_other f l r ht hb]

/-- Settles O13. -/
theorem latchRegisterCommitsTheBuffer : Obligations.LatchRegisterCommitsTheBuffer :=
  ⟨fun _ => decodeCommand_of_masked (op := 5), fun s =>
    ⟨_, exec_eq_effect _ s, fbPixel_commit_top s.fb s.sr s.ra, fbPixel_commit_bottom s.fb s.sr s.ra,
      fun _ x ht hb => fbPixel_commit_other s.fb s.sr s.ra x ht hb, rfl, rfl⟩⟩

/-! Commands that commute or override (R98): from their effects to the streams. -/

theorem runCommands_comm {i j : Instr} {s : State} (h : effect j (effect i s) = effect i (effect j s)) :
    runCommands [i, j] s = runCommands [j, i] s := by
  simp only [runCommands_cons, runCommands_nil, h]

theorem runCommands_override {i j : Instr} {s : State} (h : effect j (effect i s) = effect j s) :
    runCommands [i, j] s = runCommands [j] s := by
  simp only [runCommands_cons, runCommands_nil, h]

/-- What pushes write, the buffer and `commit_valid`, CLEAR_ROW writes too. -/
theorem runCommands_pushBits_clearRow (bs : List Bool) (row : RowOperand) (s : State) :
    runCommands (pushBits bs ++ [.clearRow row]) s = runCommands [.clearRow row] s := by
  rw [runCommands_append, runCommands_pushBits, andThen_next, runCommands_cons, runCommands_cons]
  rfl

theorem effect_displayEn_of_ne {i : Instr} (hp : i ≠ .prepareLatch) (hl : i ≠ .latchRegister) (s : State) :
    (effect i s).displayEn = s.displayEn :=
  congrArg LatchState.toBit (effect_ls_of_ne hp hl s)

/-! LATCH_REGISTER commutes with no command that writes what it reads or LatchState (R98). -/

/-- A commit shows the newest bit, the blue of the bottom row's last pixel. -/
theorem commit_ne_of_newest_ne {l m : Buffer} (h : srGet l 191 ≠ srGet m 191) (f : FrameBuffer)
    (r : RowAddress) : commit f l r ≠ commit f m r := by
  intro hcommit
  have hpixel := congrArg (fun g => fbPixel g (bottomY r) 31) hcommit
  rw [fbPixel_commit_bottom, fbPixel_commit_bottom, Pixel.mk.injEq] at hpixel
  obtain ⟨-, -, hblue⟩ := hpixel
  exact h hblue

/-- A commit of a row that was not already there is seen to be in its row-pair and not in another. -/
theorem commit_ne_of_ra_ne {r q : RowAddress} (hrq : r ≠ q) {f : FrameBuffer} {l : Buffer}
    (hnew : decodeTop l ≠ fbRow f (topY r)) (m : Buffer) : commit f l r ≠ commit f m q := by
  intro hcommit
  have hrow := congrArg (fun g => fbRow g (topY r)) hcommit
  rw [fbRow_commit_top, fbRow_commit_other f m q (mt topY_inj.mp hrq) (topY_ne_bottomY r q)] at hrow
  exact hnew hrow

/-- The commits of a full buffer into the black frame: another row-pair shows. -/
theorem commit_allOnes_ne {r q : RowAddress} (hrq : r ≠ q) (m : Buffer) :
    commit State.reset.fb (BitVec.allOnes 192) r ≠ commit State.reset.fb m q := by
  have hblack : fbRow State.reset.fb (topY r) = Vector.replicate 32 Pixel.black := fbRow_resetFrame _
  refine commit_ne_of_ra_ne hrq ?_ m
  rw [hblack]
  decide

theorem effect_latchRegister (s : State) : effect .latchRegister s = s.latch := rfl

/-- From some state, LATCH_REGISTER before the instruction and after it differ in the frame buffer or in
LatchState. -/
def LatchOrderShows (i : Instr) : Prop :=
  ∃ s t u, runCommands [.latchRegister, i] s = .next t ∧ runCommands [i, .latchRegister] s = .next u ∧
    (t.fb ≠ u.fb ∨ t.ls ≠ u.ls)

theorem latchOrderShows_of_effect {i : Instr} (s : State)
    (h : (effect i s.latch).fb ≠ (effect i s).latch.fb ∨ (effect i s.latch).ls ≠ (effect i s).latch.ls) :
    LatchOrderShows i :=
  ⟨s, effect i s.latch, (effect i s).latch, by simp [effect_latchRegister],
    by simp [effect_latchRegister], h⟩

theorem latchOrderShows_prepareLatch : LatchOrderShows .prepareLatch :=
  latchOrderShows_of_effect State.reset (.inr nofun)

/-- Pushed over its complement, the bit is the newest in one commit and not in the other. -/
theorem latchOrderShows_pushBit (b : Bool) : LatchOrderShows (.pushBit b) := by
  have hnewest : srGet (srPush 0 !b) 191 ≠ srGet (srPush (srPush 0 !b) b) 191 := by simp [srGet_srPush]
  exact latchOrderShows_of_effect (State.reset.push !b) (.inl (commit_ne_of_newest_ne hnewest _ _))

/-- From another RowAddress, the commit before a selection goes to another row-pair than the one after. -/
theorem latchOrderShows_of_selects {i : Instr} {r : RowAddress} (hl : i ≠ .latchRegister)
    (hra : ∀ s, (effect i s).ra = r) : LatchOrderShows i := by
  have hother : r + 1 ≠ r := by simp
  refine latchOrderShows_of_effect
    ((State.reset.setBuffer (BitVec.allOnes 192)).setRowAddress (r + 1)) (.inl ?_)
  rw [effect_fb, if_neg hl, State.latch_fb, State.latch_fb, hra, effect_fb, if_neg hl]
  exact commit_allOnes_ne hother _

/-- Settles O40: commands commute when they write different elements; a latch does not, because its commit
reads the buffer and RowAddress and it writes LatchState. -/
theorem commandsCommuteAsListed : Obligations.CommandsCommuteAsListed := by
  refine ⟨fun row row' b bs s => ?_, fun row b s hs => ?_, ?_⟩
  · exact ⟨runCommands_comm rfl, runCommands_comm rfl, runCommands_comm rfl, runCommands_comm rfl,
      runCommands_override rfl, runCommands_override rfl, runCommands_pushBits_clearRow bs row s⟩
  · refine ⟨_, _, _, _, exec_eq_effect _ s, exec_eq_effect _ s, exec_eq_effect _ s, exec_eq_effect _ s,
      rfl, ?_, ?_, ?_⟩
    all_goals exact (effect_displayEn_of_ne (by simp) (by simp) s).trans hs
  · rintro i (⟨b, rfl⟩ | ⟨row, rfl⟩ | ⟨row, rfl⟩ | rfl)
    · exact latchOrderShows_pushBit b
    · exact latchOrderShows_of_selects (r := rowAddressOf row) nofun fun _ => rfl
    · exact latchOrderShows_of_selects (r := rowAddressOf row) nofun fun _ => rfl
    · exact latchOrderShows_prepareLatch

end Sys2Proof.Machine
end

section
/-! PROOFS. The statements about the frame-commit decoder (spec/42_frame_commit_decoder.md): repeated
commits (R112), a short payload (R113), the read register (R114) and the commit notification (R115). -/

namespace Sys2Proof.Machine

/-! The commit over streams of commands. -/

/-- A commit shows its buffer in its row-pair (R111). -/
theorem showsRows_commit (f : FrameBuffer) (l : Buffer) (r : RowAddress) :
    ShowsRows (commit f l r) r (decodeTop l) (decodeBottom l) :=
  ⟨fbRow_commit_top f l r, fbRow_commit_bottom f l r⟩

/-- Settles O36: the first latch keeps the buffer and RowAddress, so the second commits the old bits moved
down by the pushes, with the new ones above. -/
theorem shortPayloadKeepsStaleBits : Obligations.ShortPayloadKeepsStaleBits := by
  intro bs s hbs
  have hrun : runCommands (.latchRegister :: pushBits bs ++ [.latchRegister]) s =
      .next (s.latch.setBuffer (bs.foldl srPush s.sr)).latch := by
    rw [List.cons_append, runCommands_cons, effect_latchRegister, runCommands_pushBits_latch,
      State.latch_sr]
  refine ⟨_, hrun, fun i hi => ?_, fun j hj => ?_, showsRows_commit _ _ _⟩
  · exact (srGet_foldl_srPush bs s.sr (by omega)).trans (if_pos (by omega))
  · have hidx : 192 - bs.length + j + bs.length - 192 = j := by omega
    have hbit := srGet_foldl_srPush bs s.sr (i := 192 - bs.length + j) (by omega)
    rwa [if_neg (by omega), hidx] at hbit

/-- A second commit of the same buffer to the same row-pair changes nothing. -/
theorem commit_commit (f : FrameBuffer) (l : Buffer) (r : RowAddress) :
    commit (commit f l r) l r = commit f l r :=
  frame_ext fun y => by
    simp only [fbRow_commit]
    split_ifs <;> rfl

/-- Only PUSH_BIT, CLEAR_ROW and SELECT_ROW write what a commit reads, the buffer and RowAddress. -/
theorem effect_keeps_sr_ra {i : Instr} (hpush : ∀ b, i ≠ .pushBit b) (hclear : ∀ row, i ≠ .clearRow row)
    (hselect : ∀ row, i ≠ .selectRow row) (s : State) :
    (effect i s).sr = s.sr ∧ (effect i s).ra = s.ra := by
  cases i with
  | pushBit b => exact absurd rfl (hpush b)
  | clearRow row => exact absurd rfl (hclear row)
  | selectRow row => exact absurd rfl (hselect row)
  | nop | prepareLatch | latchRegister | rsvd6 | rsvd7 | srGet | fbRead => exact ⟨rfl, rfl⟩

/-- While a frame buffer shows the commit of the current buffer, instructions that keep the buffer and
RowAddress, LATCH_REGISTER among them, keep the frame buffer too. -/
theorem runCommands_keeps_shown_commit {is : List Instr}
    (his : ∀ i ∈ is, ∀ s, (effect i s).sr = s.sr ∧ (effect i s).ra = s.ra)
    {s : State} (hshown : commit s.fb s.sr s.ra = s.fb) :
    ∃ t, runCommands is s = .next t ∧ t.fb = s.fb ∧ t.sr = s.sr ∧ t.ra = s.ra := by
  induction is generalizing s with
  | nil => exact ⟨s, rfl, rfl, rfl, rfl⟩
  | cons i is ih =>
    obtain ⟨hi, his⟩ := List.forall_mem_cons.mp his
    obtain ⟨hsr, hra⟩ := hi s
    have hfb : (effect i s).fb = s.fb := by rw [effect_fb, hshown, ite_self]
    obtain ⟨t, hrun, htfb, htsr, htra⟩ := ih his (s := effect i s) (by rw [hfb, hsr, hra, hshown])
    exact ⟨t, by rw [runCommands_cons, hrun], htfb.trans hfb, htsr.trans hsr, htra.trans hra⟩

/-- Settles O39: after a latch the frame buffer shows the commit of the current buffer, the stream keeps
this, and so the second latch finds the rows it writes. -/
theorem latchIsIdempotent : Obligations.LatchIsIdempotent := by
  intro is s hpush hclear hselect
  have hkeeps : ∀ i ∈ is, ∀ s, (effect i s).sr = s.sr ∧ (effect i s).ra = s.ra := fun i hi =>
    effect_keeps_sr_ra (fun b h => hpush b (h ▸ hi)) (fun row h => hclear row (h ▸ hi))
      fun row h => hselect row (h ▸ hi)
  have hshown : commit s.latch.fb s.latch.sr s.latch.ra = s.latch.fb := commit_commit s.fb s.sr s.ra
  obtain ⟨u, hrun, hufb, husr, hura⟩ := runCommands_keeps_shown_commit hkeeps hshown
  refine ⟨s.latch, u, u.latch, exec_eq_effect _ s, hrun, exec_eq_effect _ u, rfl, rfl, ?_, husr, hura⟩
  rw [State.latch_fb, hufb, husr, hura, hshown]

/-! The outputs of one clock edge. -/

/-- Settles O26: a reset clears the read register, and any other edge loads it from the frame buffer as the
cycle finds it, or keeps it. -/
theorem frameBufferReadPort : Obligations.FrameBufferReadPort := by
  intro p s
  cases hr : p.rst with
  | true => exact ⟨_, cycle_of_rst hr s, fun _ => rfl, nofun, nofun⟩
  | false =>
    obtain ⟨t, hcycle, -, hdata, -⟩ := cycle_frame_of_not_rst hr s
    exact ⟨t, hcycle, nofun, fun _ hread => hdata.trans (if_pos hread),
      fun _ hread => hdata.trans (if_neg (by simp [hread]))⟩

@[simp] theorem State.afterReads_commitRow (p : PortCycle) (s : State) :
    (s.afterReads p).commitRow = s.commitRow := by
  rw [State.afterReads_frame]

/-- Every command but LATCH_REGISTER drops `commit_valid` and keeps `commit_row` (R115). -/
theorem effect_notification_of_ne {i : Instr} (hi : i.isCommand = true) (hl : i ≠ .latchRegister)
    (s : State) : (effect i s).commitValid = false ∧ (effect i s).commitRow = s.commitRow := by
  cases i with
  | latchRegister => exact absurd rfl hl
  | srGet idx => cases hi
  | fbRead y => cases hi
  | nop | selectRow | prepareLatch | pushBit | clearRow | rsvd6 | rsvd7 => exact ⟨rfl, rfl⟩

/-- The state a latch leaves, seen from the cycle's start: the reads before it touch nothing it uses. -/
theorem latch_afterReads_notification (p : PortCycle) (s : State) :
    (s.afterReads p).latch.commitValid = true ∧ (s.afterReads p).latch.commitRow = s.ra ∧
      (s.afterReads p).latch.displayEn = true ∧
      ShowsRows (s.afterReads p).latch.fb s.ra (decodeTop s.sr) (decodeBottom s.sr) := by
  refine ⟨rfl, State.afterReads_ra p s, rfl, ?_⟩
  rw [State.latch_fb, State.afterReads_sr, State.afterReads_ra]
  exact showsRows_commit _ _ _

/-- Settles O29: the edge accepts no command, LATCH_REGISTER, or another command. -/
theorem commitNotificationFollowsEachLatch : Obligations.CommitNotificationFollowsEachLatch := by
  intro p s hr
  cases hc : acceptedCommand p with
  | none =>
    exact ⟨_, cycle_of_not_accepted hr hc s, nofun, fun _ => ⟨rfl, State.afterReads_commitRow p s⟩⟩
  | some i =>
    refine ⟨_, cycle_of_accepted hc s, ?_, fun hne => ?_⟩
    · rintro ⟨⟩
      exact latch_afterReads_notification p s
    · obtain ⟨hvalid, hrow⟩ := effect_notification_of_ne (isCommand_of_acceptedCommand hc)
        (mt (congrArg some) hne) (s.afterReads p)
      exact ⟨hvalid, hrow.trans (State.afterReads_commitRow p s)⟩

end Sys2Proof.Machine
end

section
/-! PROOFS. The statements about the scan sequence (spec/43_scan_sequence.md): the payload in the buffer
(R130, R131), scan steps one after another (R132, R133), and a scan step in clock cycles (R134, R135). -/

namespace Sys2Proof.Machine

/-! A payload as the bits its pushes push (R73, R130). -/

/-- The planes of a payload in push order: bit `x` of plane `k` is meant for `L[32k + x]` (R131). -/
def Payload.planes (p : Payload) : List Plane :=
  [p.topR, p.topG, p.topB, p.bottomR, p.bottomG, p.bottomB]

/-- The bits of a payload in push order. -/
def Payload.bits (p : Payload) : List Bool := p.planes.flatMap planeBits

theorem pushPayload_eq_pushBits (p : Payload) : pushPayload p = pushBits p.bits := by
  simp [pushPayload, pushPlane, pushBits, Payload.bits, Payload.planes]

@[simp] theorem planeBits_length (v : Plane) : (planeBits v).length = 32 := by simp [planeBits]

@[simp] theorem Payload.bits_length (p : Payload) : p.bits.length = 192 := by
  simp [Payload.bits, Payload.planes]

theorem planeBits_getD (v : Plane) {x : Nat} (hx : x < 32) :
    (planeBits v).getD x false = v.getLsbD x := by
  simp [planeBits, List.getD_eq_getElem?_getD, hx]

/-- Planes of 32 bits one after another: bit `x` of plane `k` is bit `32k + x` of them all. -/
theorem flatMap_planeBits_getD (vs : List Plane) (k : Nat) {x : Nat} (hx : x < 32) :
    (vs.flatMap planeBits).getD (32 * k + x) false = (vs.getD k 0).getLsbD x := by
  induction vs generalizing k with
  | nil => simp
  | cons v vs ih =>
    rw [List.flatMap_cons]
    cases k with
    | zero =>
      have hin : 32 * 0 + x < (planeBits v).length := by rw [planeBits_length]; omega
      rw [List.getD_append _ _ _ _ hin, Nat.mul_zero, Nat.zero_add, planeBits_getD v hx,
        List.getD_cons_zero]
    | succ k =>
      have hrest : 32 * (k + 1) + x - 32 = 32 * k + x := by omega
      rw [List.getD_append_right _ _ _ _ (by rw [planeBits_length]; omega), planeBits_length, hrest,
        ih, List.getD_cons_succ]

/-- The buffer that holds a payload. -/
def Payload.buffer (p : Payload) : Buffer := p.bits.foldl srPush srCleared

/-- A payload fills the buffer, so what stood there before is gone (R84). -/
theorem Payload.foldl_srPush_bits (p : Payload) (l : Buffer) : p.bits.foldl srPush l = p.buffer :=
  foldl_srPush_indep p.bits_length.ge l srCleared

theorem Payload.srGet_buffer (p : Payload) {k x : Nat} (hk : k < 6) (hx : x < 32) :
    srGet p.buffer (32 * k + x) = (p.planes.getD k 0).getLsbD x := by
  rw [Payload.buffer, srGet_foldl_srPush_of_le p.bits_length.ge srCleared (by omega), p.bits_length,
    Nat.add_sub_cancel]
  exact flatMap_planeBits_getD p.planes k hx

/-! A payload on the panel. -/

/-- The frame buffer shows a payload in a row-pair, pixel by pixel. -/
def ShowsPayload (f : FrameBuffer) (i : RowAddress) (p : Payload) : Prop :=
  ∀ x : Column, fbPixel f (topY i) x = p.topPixel x ∧ fbPixel f (bottomY i) x = p.bottomPixel x

theorem showsPayload_commit (f : FrameBuffer) (i : RowAddress) (p : Payload) :
    ShowsPayload (commit f p.buffer i) i p := by
  intro x
  have hbit {k : Nat} (hk : k < 6) := p.srGet_buffer hk x.isLt
  rw [fbPixel_commit_top, fbPixel_commit_bottom]
  exact ⟨pixel_ext (hbit (k := 0) (by decide)) (hbit (k := 1) (by decide)) (hbit (k := 2) (by decide)),
    pixel_ext (hbit (k := 3) (by decide)) (hbit (k := 4) (by decide)) (hbit (k := 5) (by decide))⟩

/-- A commit to another row-pair leaves the payload shown. -/
theorem ShowsPayload.commit_of_ne {f : FrameBuffer} {i j : RowAddress} {p : Payload}
    (h : ShowsPayload f i p) (hij : i ≠ j) (l : Buffer) : ShowsPayload (commit f l j) i p := by
  intro x
  rw [fbPixel_commit_other f l j x (mt topY_inj.mp hij) (topY_ne_bottomY i j),
    fbPixel_commit_other f l j x (topY_ne_bottomY j i).symm (mt bottomY_inj.mp hij)]
  exact h x

/-! One scan step (R130, R131, R133). -/

/-- The state a scan step leaves. -/
def State.scanned (s : State) (i : RowAddress) (p : Payload) : State :=
  ((s.setRowAddress i).setBuffer p.buffer).latch

@[simp] theorem State.scanned_fb (s : State) (i : RowAddress) (p : Payload) :
    (s.scanned i p).fb = commit s.fb p.buffer i := by
  simp [State.scanned]

theorem scanStep_eq (i : RowAddress) (p : Payload) :
    scanStep i p = .clearRow (i.setWidth 5) :: .prepareLatch :: .selectRow (i.setWidth 5 + 1) ::
      (pushBits p.bits ++ [.latchRegister]) := by
  rw [scanStep, pushPayload_eq_pushBits]
  rfl

/-- A scan step without its CLEAR_ROW already leaves nothing of the buffer it started from (R133). -/
theorem runCommands_scanStep_tail (i : RowAddress) (p : Payload) (s : State) :
    runCommands (scanStep i p).tail s = .next (s.scanned i p) := by
  rw [scanStep_eq, List.tail_cons, runCommands_cons, runCommands_cons, runCommands_pushBits_latch,
    p.foldl_srPush_bits]
  simp only [effect, State.selectRow, rowAddressOf_succ]
  rfl

/-- The CLEAR_ROW writes only what the rest of the scan step overwrites. -/
theorem runCommands_scanStep (i : RowAddress) (p : Payload) (s : State) :
    runCommands (scanStep i p) s = .next (s.scanned i p) := by
  have hclear : scanStep i p = .clearRow (i.setWidth 5) :: (scanStep i p).tail := rfl
  rw [hclear, runCommands_cons, runCommands_scanStep_tail]
  rfl

/-- Settles O44: the state is that of a latch at the row-pair with the payload in the buffer. -/
theorem scanStepShowsItsPayload : Obligations.ScanStepShowsItsPayload := by
  intro i p s
  refine ⟨_, runCommands_scanStep i p s, rfl, rfl, rfl, rfl, fun x hx => ?_,
    showsPayload_commit s.fb i p, fun y ht hb => fbRow_commit_other s.fb p.buffer i ht hb, rfl⟩
  have hbit {k : Nat} (hk : k < 6) := p.srGet_buffer hk hx
  exact ⟨hbit (k := 0) (by decide), hbit (k := 1) (by decide), hbit (k := 2) (by decide),
    hbit (k := 3) (by decide), hbit (k := 4) (by decide), hbit (k := 5) (by decide)⟩

/-! A scan step as a well-formed stream (R72, R130). -/

theorem commandStreamWellFormed_append (is js : List Instr) :
    commandStreamWellFormed (is ++ js) = (commandStreamWellFormed is && commandStreamWellFormed js) :=
  List.all_append

theorem commandStreamWellFormed_pushBits (bs : List Bool) :
    commandStreamWellFormed (pushBits bs) = true := by
  induction bs with
  | nil => rfl
  | cons b bs ih => exact ih

theorem scanStep_length (i : RowAddress) (p : Payload) : (scanStep i p).length = 196 := by
  simp [scanStep_eq, pushBits]

theorem scanStep_wellFormed (i : RowAddress) (p : Payload) :
    commandStreamWellFormed (scanStep i p) = true := by
  rw [scanStep, pushPayload_eq_pushBits, commandStreamWellFormed_append, commandStreamWellFormed_append,
    commandStreamWellFormed_pushBits]
  rfl

/-- Settles O43. -/
theorem scanStepHas196Commands : Obligations.ScanStepHas196Commands :=
  fun i p => ⟨scanStep_length i p, scanStep_wellFormed i p⟩

/-! Many scan steps (R132). -/

/-- After scan steps of the row-pairs `is`, a payload is shown where its own scan step was among them, and
where it was shown before: a scan step of one row-pair leaves the others alone. -/
theorem runCommands_scanSteps (ps : RowAddress → Payload) (is : List RowAddress) (s : State) :
    ∃ t, runCommands (is.flatMap fun i => scanStep i (ps i)) s = .next t ∧
      ∀ j, j ∈ is ∨ ShowsPayload s.fb j (ps j) → ShowsPayload t.fb j (ps j) := by
  induction is generalizing s with
  | nil => exact ⟨s, rfl, fun j h => h.resolve_left List.not_mem_nil⟩
  | cons i is ih =>
    obtain ⟨t, hrun, hshown⟩ := ih (s.scanned i (ps i))
    refine ⟨t, ?_, fun j hj => hshown j ?_⟩
    · rw [List.flatMap_cons, runCommands_append, runCommands_scanStep, andThen_next, hrun]
    · rw [State.scanned_fb]
      rcases eq_or_ne j i with rfl | hji
      · exact .inr (showsPayload_commit s.fb j (ps j))
      · exact hj.imp (fun hmem => (List.mem_cons.mp hmem).resolve_left hji) fun hbefore =>
          hbefore.commit_of_ne hji (ps i).buffer

theorem fullPass_eq_flatMap (ps : RowAddress → Payload) :
    fullPass ps = ((List.range 16).map (BitVec.ofNat 4)).flatMap fun i => scanStep i (ps i) := by
  rw [fullPass, List.flatMap_map]

theorem mem_map_ofNat_range (i : RowAddress) : i ∈ (List.range 16).map (BitVec.ofNat 4) :=
  List.mem_map.mpr ⟨i.toNat, List.mem_range.mpr i.isLt, by simp⟩

/-- Settles O45: every row-pair is among the 16. -/
theorem fullPassCoversThePanel : Obligations.FullPassCoversThePanel := by
  intro ps s
  obtain ⟨t, hrun, hshown⟩ := runCommands_scanSteps ps ((List.range 16).map (BitVec.ofNat 4)) s
  exact ⟨t, by rw [fullPass_eq_flatMap, hrun], fun i => hshown i (.inl (mem_map_ofNat_range i))⟩

/-! CLEAR_ROW before a payload (R133). -/

theorem runCommands_pushes_selectRow_pushes_latch (row : RowOperand) (bs cs : List Bool) (s : State) :
    runCommands (pushBits bs ++ .selectRow row :: pushBits cs ++ [.latchRegister]) s =
      .next ((s.selectRow row).setBuffer ((bs ++ cs).foldl srPush s.sr)).latch := by
  rw [List.append_assoc, runCommands_append, runCommands_pushBits, andThen_next, List.cons_append,
    runCommands_cons, runCommands_pushBits_latch, List.foldl_append]
  rfl

/-- Settles O42: a full payload overwrites the buffer CLEAR_ROW cleared, and SELECT_ROW the row it selected;
a short one moves its zeros down. -/
theorem clearRowIsRedundantBeforeAFullPayload : Obligations.ClearRowIsRedundantBeforeAFullPayload := by
  refine ⟨fun row row' bs cs s hlen => ?_, fun i p s => ?_, fun row bs s hlen => ?_⟩
  · have hfull : 192 ≤ (bs ++ cs).length := by rwa [List.length_append]
    rw [List.cons_append, List.cons_append, runCommands_cons, runCommands_pushes_selectRow_pushes_latch,
      runCommands_pushes_selectRow_pushes_latch, foldl_srPush_indep hfull _ s.sr]
    rfl
  · rw [runCommands_scanStep, runCommands_scanStep_tail]
  · refine ⟨_, (runCommands_cons _ _ s).trans (runCommands_pushBits bs _), rfl, rowAddressOf_toNat row,
      fun i hi => ?_⟩
    exact (srGet_foldl_srPush bs srCleared (by omega)).trans
      ((if_pos (by omega)).trans (srGet_srCleared _))

/-! A stream of commands presented one a cycle (R12, R49). -/

theorem encode_of_isCommand {i : Instr} (hi : i.isCommand = true) :
    ∃ w, encode i = .command w ∧ decodeCommand w = i := by
  cases i with
  | srGet | fbRead => cases hi
  | nop | selectRow | prepareLatch | pushBit | clearRow | latchRegister | rsvd6 | rsvd7 =>
    exact ⟨_, rfl, decodeCommand_commandWord _ _ _⟩

/-- A cycle that presents a command and no read accepts the command, after the SR read at index 0. -/
theorem cycle_of_command {i : Instr} (hi : i.isCommand = true) (s : State) :
    cycle (cycleOfWord (encode i)) s = .next (effect i (s.readBit 0)) := by
  obtain ⟨w, henc, hdec⟩ := encode_of_isCommand hi
  have haccepted : acceptedCommand (commandCycle w) = some i :=
    acceptedCommand_eq_some_iff.mpr ⟨rfl, rfl, hdec⟩
  rw [henc]
  exact cycle_of_accepted haccepted s

/-- A command neither reads nor writes the model's own two fields. -/
theorem effect_setSrRdBit_setInputs {i : Instr} (hi : i.isCommand = true) (s : State) (b : Bool)
    (ps : List PortCycle) :
    effect i ((s.setSrRdBit b).setInputs ps) = ((effect i s).setSrRdBit b).setInputs ps := by
  cases i with
  | srGet | fbRead => cases hi
  | nop | selectRow | prepareLatch | pushBit | clearRow | latchRegister | rsvd6 | rsvd7 => rfl

/-- From a state with a stream of commands presented, as many cycles as commands leave what the commands
leave, but for the model's own two fields. -/
theorem runCycles_of_runCommands {is : List Instr} {s u : State}
    (his : ∀ i ∈ is, i.isCommand = true) (hrun : runCommands is s = .next u) (b : Bool)
    (rest : List PortCycle) :
    ∃ b', runCycles is.length ((s.setSrRdBit b).setInputs (cyclesOf is ++ rest)) =
      .next ((u.setSrRdBit b').setInputs rest) := by
  induction is generalizing s b with
  | nil =>
    obtain rfl : s = u := Host.Outcome.next.inj hrun
    exact ⟨b, rfl⟩
  | cons i is ih =>
    obtain ⟨hi, his⟩ := List.forall_mem_cons.mp his
    rw [runCommands_cons] at hrun
    obtain ⟨b', hcycles⟩ := ih his hrun (srReadPort s.sr 0)
    have hstep : step ((s.setSrRdBit b).setInputs (cyclesOf (i :: is) ++ rest)) =
        .next (((effect i s).setSrRdBit (srReadPort s.sr 0)).setInputs (cyclesOf is ++ rest)) := by
      rw [← effect_setSrRdBit_setInputs hi]
      exact (step_of_inputs rfl).trans (cycle_of_command hi _)
    exact ⟨b', by rw [List.length_cons, runCycles, hstep, andThen_next, hcycles]⟩

/-- As many cycles as the first part of a presented stream has commands leave what that part leaves. -/
theorem runCycles_of_first_part {is js : List Instr} {rest : List PortCycle} {s u : State}
    (hin : s.inputs = cyclesOf (is ++ js) ++ rest) (his : ∀ i ∈ is, i.isCommand = true)
    (hrun : runCommands is s = .next u) :
    ∃ b ps, runCycles is.length s = .next ((u.setSrRdBit b).setInputs ps) := by
  have hown : s = (s.setSrRdBit s.srRdBit).setInputs (cyclesOf is ++ (cyclesOf js ++ rest)) := by
    rw [← List.append_assoc, cyclesOf, cyclesOf, ← List.map_append, ← cyclesOf, ← hin]
    rfl
  obtain ⟨b, hcycles⟩ := runCycles_of_runCommands his hrun s.srRdBit (cyclesOf js ++ rest)
  exact ⟨b, _, by rw [hown]; exact hcycles⟩

/-! A scan step in clock cycles (R135). -/

theorem isCommand_of_mem_scanStep {i : RowAddress} {p : Payload} {c : Instr} (hc : c ∈ scanStep i p) :
    c.isCommand = true := by
  obtain ⟨hcommand, -⟩ :=
    Bool.and_eq_true_iff.mp (List.all_eq_true.mp (scanStep_wellFormed i p) c hc)
  exact hcommand

theorem runCommands_keeps_ls {is : List Instr}
    (his : ∀ i ∈ is, i ≠ .prepareLatch ∧ i ≠ .latchRegister) (s : State) :
    ∃ t, runCommands is s = .next t ∧ t.ls = s.ls := by
  induction is generalizing s with
  | nil => exact ⟨s, rfl, rfl⟩
  | cons i is ih =>
    obtain ⟨⟨hp, hl⟩, his⟩ := List.forall_mem_cons.mp his
    obtain ⟨t, hrun, hls⟩ := ih his (effect i s)
    exact ⟨t, by rw [runCommands_cons, hrun], hls.trans (effect_ls_of_ne hp hl s)⟩

/-- The commands of a scan step between its PREPARE_LATCH and its LATCH_REGISTER. -/
def scanShift (i : RowAddress) (p : Payload) : List Instr :=
  .selectRow (i.setWidth 5 + 1) :: pushBits p.bits

theorem scanShift_length (i : RowAddress) (p : Payload) : (scanShift i p).length = 193 := by
  simp [scanShift, pushBits]

/-- No command of the shift writes LatchState. -/
theorem ne_latch_of_mem_scanShift {i : RowAddress} {p : Payload} {c : Instr} (hc : c ∈ scanShift i p) :
    c ≠ .prepareLatch ∧ c ≠ .latchRegister := by
  rcases List.mem_cons.mp hc with rfl | hpush
  · exact ⟨nofun, nofun⟩
  · obtain ⟨b, -, rfl⟩ := List.mem_map.mp hpush
    exact ⟨nofun, nofun⟩

/-- A scan step up to some command of its shift, and what comes after. -/
theorem scanStep_split (i : RowAddress) (p : Payload) (n : Nat) :
    scanStep i p = (.clearRow (i.setWidth 5) :: .prepareLatch :: (scanShift i p).take n) ++
      ((scanShift i p).drop n ++ [.latchRegister]) := by
  rw [List.cons_append, List.cons_append, ← List.append_assoc, List.take_append_drop, scanStep_eq]
  rfl

/-- The part of a scan step up to some command of its shift leaves the display off. -/
theorem runCommands_scanStep_part (i : RowAddress) (p : Payload) (n : Nat) (s : State) :
    ∃ t, runCommands (.clearRow (i.setWidth 5) :: .prepareLatch :: (scanShift i p).take n) s = .next t ∧
      t.ls = .hidden := by
  simp only [runCommands_cons]
  exact runCommands_keeps_ls (fun c hc => ne_latch_of_mem_scanShift (List.mem_of_mem_take hc)) _

/-- Settles O47: `k` cycles run the first `k` commands, up to the shift's `k - 2`nd for `k` from 2 to 195,
and all of them for `k = 196`. -/
theorem displayIsOffWhileAScanStepShifts : Obligations.DisplayIsOffWhileAScanStepShifts := by
  intro i p rest s hin
  constructor
  · intro k hk hk'
    obtain ⟨u, hrun, hhidden⟩ := runCommands_scanStep_part i p (k - 2) s
    have hsplit := scanStep_split i p (k - 2)
    obtain ⟨b, ps, hcycles⟩ := runCycles_of_first_part (hsplit ▸ hin)
      (fun c hc => isCommand_of_mem_scanStep (hsplit ▸ List.mem_append_left _ hc)) hrun
    have hlen : ((scanShift i p).take (k - 2)).length + 1 + 1 = k := by
      rw [List.length_take, scanShift_length]
      omega
    rw [List.length_cons, List.length_cons, hlen] at hcycles
    exact ⟨_, hcycles, congrArg LatchState.toBit hhidden⟩
  · have hall : scanStep i p ++ [] = scanStep i p := List.append_nil _
    obtain ⟨b, ps, hcycles⟩ :=
      runCycles_of_first_part (hall.symm ▸ hin) (fun _ hc => isCommand_of_mem_scanStep hc)
        (runCommands_scanStep i p s)
    rw [scanStep_length] at hcycles
    exact ⟨_, hcycles, rfl, rfl, rfl⟩

/-! Idle cycles (R134, R151). -/

/-- A step past the presented inputs records the SR read at index 0 and drops `commit_valid`. -/
theorem step_of_no_inputs {s : State} (hin : s.inputs = []) :
    step s = .next (s.readBit 0).noteNoCommit := by
  have hidle : s.currentCycle = idleCycle := by simp [State.currentCycle, hin]
  have htake : s.takeCycle = s := by
    rw [State.takeCycle, hin, List.tail_nil, ← hin]
    rfl
  rw [step, hidle, htake]
  exact cycle_of_not_accepted rfl rfl s

/-- Settles O48: the first cycle drops `commit_valid`, and the others find nothing left to change. -/
theorem idleCyclesChangeNothing : Obligations.IdleCyclesChangeNothing := by
  intro n s hin
  induction n generalizing s with
  | zero => exact ⟨s, rfl, by simp⟩
  | succ n ih =>
    obtain ⟨t, hrun, ht⟩ := ih (s.readBit 0).noteNoCommit hin
    refine ⟨t, by rw [runCycles, step_of_no_inputs hin, andThen_next, hrun], ?_⟩
    have hpositive : (n + 1 == 0) = false := rfl
    rwa [hpositive, Bool.and_false]

end Sys2Proof.Machine
end

section
/-! PROOFS. The statements about exceptions (spec/60_exceptions.md): nothing stops the block. -/

namespace Sys2Proof.Machine

/-- The first cycle of a run leads to the state `stepState` gives, whatever the inputs. -/
theorem runCycles_succ (k : Nat) (s : State) : runCycles (k + 1) s = runCycles k (stepState s) := by
  rw [runCycles, step_eq, andThen_next]

/-- Any number of cycles ends in the state that as many uses of `stepState` give. -/
theorem runCycles_eq_iterate (k : Nat) (s : State) : runCycles k s = .next (stepState^[k] s) := by
  induction k generalizing s with
  | zero => rfl
  | succ k ih => rw [runCycles_succ, ih, Function.iterate_succ_apply]

/-- Settles O21: an instruction answers `effect`, and a run iterates `stepState`; both are functions with
a state for every case. -/
theorem nothingStopsTheBlock : Obligations.NothingStopsTheBlock :=
  ⟨fun i s => ⟨effect i s, exec_eq_effect i s⟩, fun s k => ⟨stepState^[k] s, runCycles_eq_iterate k s⟩⟩

end Sys2Proof.Machine
end

section
/-! PROOFS. The statements about reset and hazards (spec/70_reset_and_hazards.md): what a reset cycle leaves
(R160, R161), and the RowAddress a commit uses (R165). -/

namespace Sys2Proof.Machine

/-! Reset (R160, R161). -/

/-- The state a reset cycle leaves depends on the state before it only in the record of `sr_rd_bit` and the
inputs still to come, the model's own two fields. -/
theorem step_of_rst {s : State} {p : PortCycle} {rest : List PortCycle} (hin : s.inputs = p :: rest)
    (hr : p.rst = true) :
    step s = .next { State.reset with srRdBit := srReadPort s.sr p.srRdIdx, inputs := rest } :=
  (step_of_inputs hin).trans (cycle_of_rst hr _)

/-- One reset cycle leaves the reset state, and each further one finds a state with the rest of the inputs
and leaves it again. -/
theorem runCycles_of_rst {p : PortCycle} {ps rest : List PortCycle} {s : State}
    (hrst : ∀ q ∈ p :: ps, q.rst = true) (hin : s.inputs = p :: (ps ++ rest)) :
    ∃ b, runCycles (ps.length + 1) s = .next { State.reset with srRdBit := b, inputs := rest } := by
  induction ps generalizing p s with
  | nil => exact ⟨_, by rw [runCycles, step_of_rst hin (hrst p List.mem_cons_self)]; rfl⟩
  | cons q ps ih =>
    obtain ⟨hp, hps⟩ := List.forall_mem_cons.mp hrst
    rw [runCycles, step_of_rst hin hp, andThen_next]
    exact ih hps rfl

/-- Settles O24: a positive number of cycles has a first one. -/
theorem holdingResetHoldsTheResetState : Obligations.HoldingResetHoldsTheResetState := by
  intro ps rest s hne hrst hin
  cases ps with
  | nil => exact absurd rfl hne
  | cons p ps =>
    obtain ⟨b, hrun⟩ := runCycles_of_rst hrst hin
    exact ⟨_, hrun, rfl⟩

theorem fbPixel_resetFrame (y : RowNumber) (x : Column) :
    fbPixel (Config.resetFrame Config.fbReset) y x = Pixel.black := by
  simp only [fbPixel, fbRow_resetFrame, Vector.getElem_replicate]

/-- Settles O23, reading each element off the state a reset cycle leaves. -/
theorem resetStepSetsEveryElement : Obligations.ResetStepSetsEveryElement := by
  intro s p rest hin hr
  exact ⟨_, step_of_rst hin hr, fun i _ => srGet_srCleared i, rfl, rfl, rfl, fbPixel_resetFrame,
    rfl, rfl, rfl, rfl⟩

/-! The RowAddress a commit uses (R165). -/

/-- Only SELECT_ROW and CLEAR_ROW write RowAddress (R25). -/
theorem effect_ra (i : Instr) (s : State) : (effect i s).ra = nextRowAddress s.ra i := by
  cases i <;> rfl

/-- A stream leaves RowAddress as its last SELECT_ROW or CLEAR_ROW does. -/
theorem runCommands_ra (is : List Instr) (s : State) :
    ∃ t, runCommands is s = .next t ∧ t.ra = lastRowAddress is s.ra := by
  induction is generalizing s with
  | nil => exact ⟨s, rfl, rfl⟩
  | cons i is ih =>
    obtain ⟨t, hrun, hra⟩ := ih (effect i s)
    have hlast : lastRowAddress (i :: is) s.ra = lastRowAddress is (nextRowAddress s.ra i) :=
      List.foldl_cons ..
    exact ⟨t, by rw [runCommands_cons, hrun], by rw [hra, effect_ra, hlast]⟩

/-- Settles O41: the latch notes and commits at the RowAddress the stream left, and SELECT_ROW keeps the
frame buffer. -/
theorem commitUsesTheLastSelectedRow : Obligations.CommitUsesTheLastSelectedRow := by
  intro is row s
  obtain ⟨t, hrun, hra⟩ := runCommands_ra is s
  rw [← hra]
  exact ⟨t, t.latch, effect (.selectRow row) t.latch, hrun, exec_eq_effect _ t, exec_eq_effect _ _,
    rfl, showsRows_commit t.fb t.sr t.ra, effect_fb _ _⟩

end Sys2Proof.Machine
end

section
/-! PROOFS. The encoding and the assembly spellings as round trips (spec/30_encoding.md R62 to R72). -/

namespace Sys2Proof

/-- Settles O3: a command word gives back the fields it is made of, the frame-buffer read port's word its
row, and an SR read index is its own word. -/
theorem decodeOfEncodeIsTheInstruction : Obligations.DecodeOfEncodeIsTheInstruction := by
  intro i
  cases i with
  | srGet idx => rfl
  | fbRead y => exact Machine.decodeFbRead_fbReadWord true y
  | nop | selectRow | prepareLatch | pushBit | clearRow | latchRegister | rsvd6 | rsvd7 =>
    exact congrArg Except.ok (decodeCommand_commandWord _ _ _)

/-- Settles O2, by evaluating the decoder on the sixteen words. -/
theorem listedWordsDecode : Obligations.ListedWordsDecode := by
  unfold Obligations.ListedWordsDecode
  decide

/-! A number of a table row as a port word. -/

theorem tablePortWord_command (w : CommandWord) : tablePortWord 16 w.toNat = some (.command w) := by
  simp [tablePortWord, w.isLt]

/-- `fb_rd_en` is bit 5 of the port's word, the row number is below it. -/
theorem tablePortWord_fbRead (y : RowNumber) :
    tablePortWord 8 (32 + y.toNat) = some (.fbRead (fbReadWord true y)) := by
  revert y; decide

theorem tablePortWord_srRead {idx : SrIndex} (h : idx.toNat < 32 ∨ 64 ≤ idx.toNat) :
    tablePortWord 8 idx.toNat = some (.srRead idx) := by
  have hfb : ¬(32 ≤ idx.toNat ∧ idx.toNat < 64) := by omega
  simp [tablePortWord, hfb, idx.isLt]

end Sys2Proof

namespace Sys2Proof.Machine

/-! Assembly lines (R72): what each mnemonic and each source's call name reads. -/

theorem asmRow_toNat (row : RowOperand) : asmRow (some row.toNat) = some row := by
  simp [asmRow, row.isLt]

theorem asmBit_toNat (b : Bool) : asmBit (some b.toNat) = some b := by
  cases b <;> rfl

theorem assemble_selectRow {m : String} (hm : m = "SELECT_ROW" ∨ m = "SelectRow") (o : Option Nat) :
    assemble m o = (asmRow o).map .selectRow := by
  rcases hm with rfl | rfl <;> simp [assemble]

theorem assemble_prepareLatch {m : String} (hm : m = "PREPARE_LATCH" ∨ m = "PrepareLatch")
    (o : Option Nat) : assemble m o = asmPlain .prepareLatch o := by
  rcases hm with rfl | rfl <;> simp [assemble]

theorem assemble_pushBit {m : String} (hm : m = "PUSH_BIT" ∨ m = "PushBit") (o : Option Nat) :
    assemble m o = (asmBit o).map .pushBit := by
  rcases hm with rfl | rfl <;> simp [assemble]

theorem assemble_clearRow {m : String} (hm : m = "CLEAR_ROW" ∨ m = "ClearRow") (o : Option Nat) :
    assemble m o = (asmRow o).map .clearRow := by
  rcases hm with rfl | rfl <;> simp [assemble]

theorem assemble_latchRegister {m : String} (hm : m = "LATCH_REGISTER" ∨ m = "LatchRegister")
    (o : Option Nat) : assemble m o = asmPlain .latchRegister o := by
  rcases hm with rfl | rfl <;> simp [assemble]

theorem assemble_of_spelling {i : Instr} {m : String} {o : Option Nat}
    (h : spelling i = some (m, o)) : assemble m o = some i := by
  cases i with
  | rsvd6 | rsvd7 | srGet | fbRead => cases h
  | nop => cases h; rfl
  | selectRow row => cases h; rw [assemble_selectRow (.inl rfl), asmRow_toNat]; rfl
  | prepareLatch => cases h; exact assemble_prepareLatch (.inl rfl) none
  | pushBit b => cases h; rw [assemble_pushBit (.inl rfl), asmBit_toNat]; rfl
  | clearRow row => cases h; rw [assemble_clearRow (.inl rfl), asmRow_toNat]; rfl
  | latchRegister => cases h; exact assemble_latchRegister (.inl rfl) none

/-- The instructions without a spelling are the reserved words and the reads. -/
theorem spelling_isSome (i : Instr) : (spelling i).isSome = commandStreamWellFormed [i] := by
  cases i <;> rfl

/-- Settles O5: a mnemonic and its synonym read the same operand form, and the operand forms give back the
operands that spellings write. -/
theorem spellingAssembles : Obligations.SpellingAssembles := by
  refine ⟨fun _ _ _ => assemble_of_spelling, fun o => ?_, spelling_isSome⟩
  refine ⟨?_, ?_, ?_, ?_, ?_⟩
  · rw [assemble_selectRow (.inr rfl), assemble_selectRow (.inl rfl)]
  · rw [assemble_prepareLatch (.inr rfl), assemble_prepareLatch (.inl rfl)]
  · rw [assemble_pushBit (.inr rfl), assemble_pushBit (.inl rfl)]
  · rw [assemble_clearRow (.inr rfl), assemble_clearRow (.inl rfl)]
  · rw [assemble_latchRegister (.inr rfl), assemble_latchRegister (.inl rfl)]

end Sys2Proof.Machine
end

section
/-! PROOFS. The read ports (R82, R114), the decoder column by column (R117), and a clock cycle as its reads
followed by its edge: what the edge writes (R56, R65, R142), what it runs, and the notification (R115). -/

namespace Sys2Proof.Machine

/-! The two reads and the decoder's columns. -/

/-- Settles O16: the word loaded is the packed row. -/
theorem fbReadLoadsThePackedRow : Obligations.FbReadLoadsThePackedRow :=
  fun y s => ⟨_, exec_eq_effect _ s, fun x => pack_channels (fbRow s.fb y) x.isLt, rfl⟩

/-- Settles O15: the value recorded is the SR read port's. -/
theorem srGetReadsTheBufferBit : Obligations.SrGetReadsTheBufferBit :=
  fun _ s => ⟨_, exec_eq_effect _ s, srReadPort_of_le s.sr, srReadPort_of_gt s.sr, rfl⟩

/-- Settles O18: planes 0 to 2 give the top pixel, planes 3 to 5 the bottom one. -/
theorem decoderIsPerColumn : Obligations.DecoderIsPerColumn := by
  intro l m x hx hagree
  have hred := hagree 0 (by decide)
  rw [Nat.mul_zero, Nat.zero_add] at hred
  rw [decodeTop_getElem, decodeTop_getElem, decodeBottom_getElem, decodeBottom_getElem]
  exact ⟨pixel_ext hred (hagree 1 (by decide)) (hagree 2 (by decide)),
    pixel_ext (hagree 3 (by decide)) (hagree 4 (by decide)) (hagree 5 (by decide))⟩

/-! The clock edge, after the reads. -/

/-- What the clock edge makes of the state the reads left: the reset step, the accepted command, or the fall
of `commit_valid` (R115, R142, R160). -/
def State.atEdge (p : PortCycle) (s : State) : State :=
  if p.rst then s.resetEdge else
    match acceptedCommand p with
    | some i => effect i s
    | none => s.noteNoCommit

/-- The three edges: reset, an accepted command, neither. -/
theorem State.atEdge_cases (p : PortCycle) (s : State) :
    (p.rst = true ∧ s.atEdge p = s.resetEdge) ∨
    (∃ i, acceptedCommand p = some i ∧ s.atEdge p = effect i s) ∨
    (p.rst = false ∧ acceptedCommand p = none ∧ s.atEdge p = s.noteNoCommit) := by
  cases hr : p.rst with
  | true => exact .inl ⟨rfl, if_pos hr⟩
  | false =>
    cases hc : acceptedCommand p with
    | some i => exact .inr (.inl ⟨i, rfl, by simp [State.atEdge, hr, hc]⟩)
    | none => exact .inr (.inr ⟨rfl, rfl, by simp [State.atEdge, hr, hc]⟩)

/-- A reset step overwrites what a frame-buffer read at the same edge loads (R160). -/
theorem State.resetEdge_afterReads (p : PortCycle) (s : State) :
    (s.afterReads p).resetEdge = (s.readBit p.srRdIdx).resetEdge := by
  cases h : p.fbRdEn <;> simp [State.afterReads, h, State.resetEdge]

/-- A clock cycle is its reads and then its edge. -/
theorem cycle_eq_atEdge (p : PortCycle) (s : State) :
    cycle p s = .next ((s.afterReads p).atEdge p) := by
  rcases (s.afterReads p).atEdge_cases p with ⟨hr, hedge⟩ | ⟨i, hi, hedge⟩ | ⟨hr, hn, hedge⟩
  · rw [hedge, State.resetEdge_afterReads, cycle_of_rst hr]
  · rw [hedge, cycle_of_accepted hi]
  · rw [hedge, cycle_of_not_accepted hr hn]

theorem stepState_eq_atEdge (s : State) :
    stepState s = (s.takeCycle.afterReads s.currentCycle).atEdge s.currentCycle :=
  Host.Outcome.next.inj ((step_eq s).symm.trans (cycle_eq_atEdge _ _))

/-! Who writes what at an edge (R23, R25, R32, R56). -/

/-- Only PUSH_BIT and CLEAR_ROW push bits, so only they write the buffer. -/
theorem effect_sr_of_ne {i : Instr} (hpush : ∀ b, i ≠ .pushBit b) (hclear : ∀ row, i ≠ .clearRow row)
    (s : State) : (effect i s).sr = s.sr := by
  have hnone : pushedBits i = [] := by
    cases i with
    | pushBit b => exact absurd rfl (hpush b)
    | clearRow row => exact absurd rfl (hclear row)
    | nop | selectRow | prepareLatch | latchRegister | rsvd6 | rsvd7 | srGet | fbRead => rfl
  rw [effect_sr, hnone, List.foldl_nil]

/-- Only SELECT_ROW and CLEAR_ROW name a RowAddress. -/
theorem effect_ra_of_ne {i : Instr} (hselect : ∀ row, i ≠ .selectRow row)
    (hclear : ∀ row, i ≠ .clearRow row) (s : State) : (effect i s).ra = s.ra := by
  rw [effect_ra]
  cases i with
  | selectRow row => exact absurd rfl (hselect row)
  | clearRow row => exact absurd rfl (hclear row)
  | nop | pushBit | prepareLatch | latchRegister | rsvd6 | rsvd7 | srGet | fbRead => rfl

/-- An instruction writes no row but the two of RowAddress. -/
theorem fbRow_effect_of_ne (i : Instr) (s : State) {y : RowNumber} (ht : y ≠ topY s.ra)
    (hb : y ≠ bottomY s.ra) : fbRow (effect i s).fb y = fbRow s.fb y := by
  rw [effect_fb]
  split
  · exact fbRow_commit_other s.fb s.sr s.ra ht hb
  · rfl

/-- Settles O31: the reads keep all three elements, and so does an edge without a command; an accepted one
writes what its effect does. -/
theorem onlyTheNamedCommandsWriteEachElement : Obligations.OnlyTheNamedCommandsWriteEachElement := by
  intro p s hr
  cases hc : acceptedCommand p with
  | none => exact ⟨_, cycle_of_not_accepted hr hc s, by simp⟩
  | some i =>
    refine ⟨_, cycle_of_accepted hc s, fun hpush hclear => ?_, fun hselect hclear => ?_, fun hlatch => ?_,
      fun y ht hb => ?_⟩
    · rw [effect_sr_of_ne (fun b => mt (congrArg some) (hpush b))
        (fun row => mt (congrArg some) (hclear row)), State.afterReads_sr]
    · rw [effect_ra_of_ne (fun row => mt (congrArg some) (hselect row))
        (fun row => mt (congrArg some) (hclear row)), State.afterReads_ra]
    · rw [effect_fb, if_neg (mt (congrArg some) hlatch), State.afterReads_fb]
    · rw [fbRow_effect_of_ne i _ (by rwa [State.afterReads_ra]) (by rwa [State.afterReads_ra]),
        State.afterReads_fb]

/-! The notification invariant (R112, R115). -/

theorem notifiedCommit_of_commitValid_eq_false {s : State} (h : s.commitValid = false) :
    NotifiedCommit s := by
  intro hup
  exact absurd (h.symm.trans hup) Bool.false_ne_true

/-- A latch makes the display visible and notes the RowAddress it commits the buffer to. -/
theorem notifiedCommit_latch (s : State) : NotifiedCommit s.latch :=
  fun _ => ⟨rfl, rfl, showsRows_commit s.fb s.sr s.ra⟩

/-- Every edge brings the invariant about: a latch makes the notification true, any other edge drops it. -/
theorem notifiedCommit_atEdge (p : PortCycle) (s : State) : NotifiedCommit (s.atEdge p) := by
  rcases s.atEdge_cases p with ⟨-, hedge⟩ | ⟨i, hi, hedge⟩ | ⟨-, -, hedge⟩ <;> rw [hedge]
  · exact notifiedCommit_of_commitValid_eq_false rfl
  · by_cases hl : i = .latchRegister
    · rw [hl]
      exact notifiedCommit_latch s
    · obtain ⟨hdown, -⟩ := effect_notification_of_ne (isCommand_of_acceptedCommand hi) hl s
      exact notifiedCommit_of_commitValid_eq_false hdown
  · exact notifiedCommit_of_commitValid_eq_false rfl

/-- Settles O32: a step ends with an edge, and the invariant holds after every edge, even from states
without it. -/
theorem everyStepKeepsNotifiedCommit : Obligations.EveryStepKeepsNotifiedCommit := by
  intro s t _ hstep
  obtain rfl : stepState s = t := Host.Outcome.next.inj ((step_eq s).symm.trans hstep)
  rw [stepState_eq_atEdge]
  exact notifiedCommit_atEdge _ _

/-- Settles O33: the notification is down at reset. -/
theorem resetHasNotifiedCommit : Obligations.ResetHasNotifiedCommit :=
  notifiedCommit_of_commitValid_eq_false rfl

/-- Settles O25: no bit of the cleared buffer and no pixel of the reset frame is lit. -/
theorem resetStateHasTheResetValues : Obligations.ResetStateHasTheResetValues :=
  ⟨fun i _ => srGet_srCleared i, rfl, rfl, rfl, fbPixel_resetFrame, rfl, rfl, rfl⟩

/-! The record of the SR read (R51, R82). -/

@[simp] theorem State.afterReads_srRdBit (p : PortCycle) (s : State) :
    (s.afterReads p).srRdBit = srReadPort s.sr p.srRdIdx := by
  cases h : p.fbRdEn <;> simp [State.afterReads, h]

/-- No command writes the record: only the SR read does. -/
theorem effect_srRdBit_of_isCommand {i : Instr} (hi : i.isCommand = true) (s : State) :
    (effect i s).srRdBit = s.srRdBit := by
  cases i with
  | srGet idx => cases hi
  | fbRead y => cases hi
  | nop | selectRow | prepareLatch | pushBit | clearRow | latchRegister | rsvd6 | rsvd7 => rfl

@[simp] theorem State.atEdge_srRdBit (p : PortCycle) (s : State) : (s.atEdge p).srRdBit = s.srRdBit := by
  rcases s.atEdge_cases p with ⟨-, hedge⟩ | ⟨i, hi, hedge⟩ | ⟨-, -, hedge⟩ <;> rw [hedge]
  · rfl
  · exact effect_srRdBit_of_isCommand (isCommand_of_acceptedCommand hi) s
  · rfl

theorem stepState_srRdBit (s : State) : (stepState s).srRdBit = s.outputs.srRdBit := by
  rw [stepState_eq_atEdge, State.atEdge_srRdBit, State.afterReads_srRdBit]
  rfl

/-- Settles O28: the record is made before the edge, which keeps it. -/
theorem srReadShowsTheBufferBeforeTheCommand : Obligations.SrReadShowsTheBufferBeforeTheCommand :=
  fun s => ⟨_, step_eq s, stepState_srRdBit s, srReadPort_of_le s.sr, srReadPort_of_gt s.sr⟩

/-! What a step runs (R49, R65, R142). -/

theorem State.afterReads_of_no_request {p : PortCycle} (h : p.fbRdEn = false) (s : State) :
    s.afterReads p = s.readBit p.srRdIdx := by
  simp [State.afterReads, h]

theorem State.afterReads_of_request {p : PortCycle} (h : p.fbRdEn = true) (s : State) :
    s.afterReads p = (s.readBit p.srRdIdx).readRow p.fbRdY := by
  simp [State.afterReads, h]

/-- With a command presented, the step is exec of it, after the reads. -/
theorem step_of_command {s : State} {p : PortCycle} {rest : List PortCycle} (hin : s.inputs = p :: rest)
    (hr : p.rst = false) (hv : p.cmdValid = true) :
    step s = exec (decodeCommand p.cmd) ((s.setInputs rest).afterReads p) := by
  have hi : acceptedCommand p = some (decodeCommand p.cmd) :=
    acceptedCommand_eq_some_iff.mpr ⟨hr, hv, rfl⟩
  rw [step_of_inputs hin, cycle_of_accepted hi, exec_eq_effect]

/-- With none, it is the reads and the fall of `commit_valid`. -/
theorem step_of_no_command {s : State} {p : PortCycle} {rest : List PortCycle}
    (hin : s.inputs = p :: rest) (hr : p.rst = false) (hv : p.cmdValid = false) :
    step s = .next ((s.setInputs rest).afterReads p).noteNoCommit := by
  rw [step_of_inputs hin, cycle_of_not_accepted hr ((acceptedCommand_eq_none_iff hr).mpr hv)]

/-- A read instruction in a cycle without a command. -/
theorem andThen_exec_noteNoCommit (i : Instr) (s : State) :
    (andThen (exec i s) fun t => .next t.noteNoCommit) = .next (effect i s).noteNoCommit := by
  rw [exec_eq_effect, andThen_next]

/-- The frame-buffer read port's word is a read exactly when one is requested (R69). -/
theorem decode_fbReadWord_eq_ok_iff {en : Bool} {y : RowNumber} {i : Instr} :
    decode (.fbRead (fbReadWord en y)) = .ok i ↔ en = true ∧ .fbRead y = i := by
  simp only [decode, decodeFbRead_fbReadWord]
  cases en <;> simp

/-- Settles O19: the reads are made with or without a command, and a word decodes to the instruction whose
effect the cycle has. -/
theorem stepRunsTheDecodedInstruction : Obligations.StepRunsTheDecodedInstruction := by
  intro s p rest hin hr
  refine ⟨fun i hv hread hdec => ?_, fun i hv hread hdec => ?_, fun i hv hdec => ?_,
    fun i hv hread hdec => ?_⟩
  · obtain rfl : decodeCommand p.cmd = i := Except.ok.inj hdec
    rw [step_of_command hin hr hv, State.afterReads_of_no_request hread]
  · obtain rfl : decodeCommand p.cmd = i := Except.ok.inj hdec
    rw [step_of_command hin hr hv, State.afterReads_of_request hread]
  · obtain ⟨hread, rfl⟩ := decode_fbReadWord_eq_ok_iff.mp hdec
    rw [step_of_no_command hin hr hv, State.afterReads_of_request hread, andThen_exec_noteNoCommit]
    rfl
  · obtain rfl : decodeSrRead p.srRdIdx = i := Except.ok.inj hdec
    rw [step_of_no_command hin hr hv, State.afterReads_of_no_request hread, andThen_exec_noteNoCommit]
    rfl

/-! A word placed ahead of the inputs (notes/assumptions/1.md and 3.md). -/

theorem decodeTableWord_of_tablePortWord {nbits w : Nat} {pw : PortWord} {i : Instr}
    (hpw : tablePortWord nbits w = some pw) (hdec : decode pw = .ok i) :
    decodeTableWord nbits w = some i := by
  rw [decodeTableWord, hpw]
  simp [hdec, Except.toOption]

/-- The step after `withFetchWord` is the cycle that presents the word alone, from the state before. -/
theorem step_withFetchWord {nbits w : Nat} {pw : PortWord} (hpw : tablePortWord nbits w = some pw)
    (s : State) : step (s.withFetchWord nbits w) = cycle (cycleOfWord pw) s := by
  have hin : (s.withFetchWord nbits w).inputs = cycleOfWord pw :: s.inputs := by
    simp [State.withFetchWord, State.present, cycleOfTableWord, hpw]
  exact step_of_inputs hin

/-- The port's word carries its two signals. -/
theorem cycleOfWord_fbReadWord (en : Bool) (y : RowNumber) :
    cycleOfWord (.fbRead (fbReadWord en y)) = { idleCycle with fbRdEn := en, fbRdY := y } := by
  revert en y; decide

/-- Settles O20: each word has its port, and the cycle that presents it there makes its reads, the SR read
at index 0 where none is presented, and accepts a command only at the command port. -/
theorem presentedWordRunsNext : Obligations.PresentedWordRunsNext := by
  refine fun s => ⟨fun w => ?_, fun y => ?_, fun idx hidx => ?_⟩
  · have hpw := tablePortWord_command w
    have haccepted : acceptedCommand (commandCycle w) = some (decodeCommand w) := rfl
    refine ⟨decodeTableWord_of_tablePortWord hpw rfl, ?_⟩
    rw [step_withFetchWord hpw, exec_eq_effect]
    exact cycle_of_accepted haccepted s
  · have hpw := tablePortWord_fbRead y
    refine ⟨decodeTableWord_of_tablePortWord hpw (decodeFbRead_fbReadWord true y), ?_⟩
    rw [step_withFetchWord hpw, andThen_exec_noteNoCommit, cycleOfWord_fbReadWord]
    exact cycle_of_not_accepted rfl rfl s
  · have hpw := tablePortWord_srRead hidx
    refine ⟨decodeTableWord_of_tablePortWord hpw rfl, ?_⟩
    rw [step_withFetchWord hpw, andThen_exec_noteNoCommit]
    exact cycle_of_not_accepted rfl rfl s

end Sys2Proof.Machine
end

section
/-! PROOFS. Runs of many cycles: two runs side by side (R27, R47, R116), and cycles against commands (R12). -/

namespace Sys2Proof.Machine

/-! Two runs that agree on a part of the state (R27, R47, R116). -/

/-- What `part` keeps of the state after a step depends only on what it keeps of the state before: nothing
that it leaves out flows into it. -/
def Autonomous (part : State → State) : Prop :=
  ∀ ⦃s s' : State⦄, part s = part s' → part (stepState s) = part (stepState s')

/-- Two runs that agree on such a part keep agreeing on it. -/
theorem Autonomous.runCycles_agree {part : State → State} (hpart : Autonomous part) (k : Nat) {s s' : State}
    (hs : part s = part s') :
    ∃ t t', runCycles k s = .next t ∧ runCycles k s' = .next t' ∧ part t = part t' := by
  induction k generalizing s s' with
  | zero => exact ⟨s, s', rfl, rfl, hs⟩
  | succ k ih =>
    rw [runCycles_succ, runCycles_succ]
    exact ih (hpart hs)

/-! The read ports (R47, R116). -/

theorem withoutReads_currentCycle (s : State) :
    s.withoutReads.currentCycle = withoutReads s.currentCycle := by
  unfold State.currentCycle State.withoutReads
  cases s.inputs <;> rfl

theorem withoutReads_takeCycle (s : State) : s.withoutReads.takeCycle = s.takeCycle.withoutReads := by
  simp [State.takeCycle, State.setInputs, State.withoutReads]

/-- The reads write only what is left out. -/
theorem withoutReads_afterReads (p : PortCycle) (s : State) :
    (s.afterReads p).withoutReads = s.withoutReads := by
  rw [State.afterReads_frame]
  rfl

/-- No command looks at what is left out, and none writes it. -/
theorem withoutReads_effect {i : Instr} (hi : i.isCommand = true) (s : State) :
    (effect i s).withoutReads = effect i s.withoutReads := by
  cases i with
  | srGet idx => cases hi
  | fbRead y => cases hi
  | nop | selectRow | prepareLatch | pushBit | clearRow | latchRegister | rsvd6 | rsvd7 => rfl

theorem withoutReads_atEdge (p : PortCycle) (s : State) :
    (s.atEdge p).withoutReads = s.withoutReads.atEdge p := by
  unfold State.atEdge
  cases p.rst with
  | true => rfl
  | false =>
    cases hc : acceptedCommand p with
    | none => rfl
    | some i => exact withoutReads_effect (isCommand_of_acceptedCommand hc) s

/-- The edge does not look at the read requests of its cycle. -/
theorem State.atEdge_withoutReads (p : PortCycle) (s : State) :
    s.atEdge (Machine.withoutReads p) = s.atEdge p := rfl

/-- Without the reads a step is its edge. -/
theorem withoutReads_stepState (s : State) :
    (stepState s).withoutReads = s.withoutReads.takeCycle.atEdge s.withoutReads.currentCycle := by
  rw [stepState_eq_atEdge, withoutReads_atEdge, withoutReads_afterReads, withoutReads_takeCycle,
    withoutReads_currentCycle, State.atEdge_withoutReads]

theorem autonomous_withoutReads : Autonomous State.withoutReads := by
  intro s s' hs
  rw [withoutReads_stepState, withoutReads_stepState, hs]

/-- Settles O49: the reads write only what is left out, and the edge uses none of it. -/
theorem readsCannotDisturbTheBlock : Obligations.ReadsCannotDisturbTheBlock :=
  fun k _ _ hs => autonomous_withoutReads.runCycles_agree k hs

/-! LatchState (R27). -/

/-- The reads do not look at LatchState. -/
theorem withoutLatch_afterReads (p : PortCycle) (s : State) :
    (s.afterReads p).withoutLatch = s.withoutLatch.afterReads p := by
  unfold State.afterReads
  cases p.fbRdEn <;> rfl

/-- PREPARE_LATCH and LATCH_REGISTER write LatchState, and no instruction looks at it. -/
theorem withoutLatch_effect (i : Instr) (s : State) :
    (effect i s).withoutLatch = (effect i s.withoutLatch).withoutLatch := by
  cases i <;> rfl

theorem withoutLatch_atEdge (p : PortCycle) (s : State) :
    (s.atEdge p).withoutLatch = (s.withoutLatch.atEdge p).withoutLatch := by
  unfold State.atEdge
  cases p.rst with
  | true => rfl
  | false =>
    cases acceptedCommand p with
    | none => rfl
    | some i => exact withoutLatch_effect i s

theorem withoutLatch_stepState (s : State) :
    (stepState s).withoutLatch = (stepState s.withoutLatch).withoutLatch := by
  rw [stepState_eq_atEdge, stepState_eq_atEdge, withoutLatch_atEdge, withoutLatch_afterReads]
  rfl

theorem autonomous_withoutLatch : Autonomous State.withoutLatch := by
  intro s s' hs
  rw [withoutLatch_stepState, hs, ← withoutLatch_stepState]

/-- Settles O50: LatchState is written at some edges and used at none. -/
theorem latchStateGatesOnlyTheDisplay : Obligations.LatchStateGatesOnlyTheDisplay :=
  fun k _ _ hs => autonomous_withoutLatch.runCycles_agree k hs

/-! Cycles against commands (R12). -/

/-- Settles O46: the two levels run the stream to the same state, but for the model's own two fields, from
the state with its own record and inputs written out. -/
theorem cyclesAgreeWithCommands : Obligations.CyclesAgreeWithCommands := by
  intro is rest s his hin
  obtain ⟨u, hrun, -⟩ := runCommands_sr is s
  obtain ⟨b, hcycles⟩ := runCycles_of_runCommands his hrun s.srRdBit rest
  have hown : (s.setSrRdBit s.srRdBit).setInputs (cyclesOf is ++ rest) = s := by
    rw [← hin]
    rfl
  rw [hown] at hcycles
  exact ⟨_, u, hcycles, hrun, rfl⟩

end Sys2Proof.Machine
end
